-- ==== Sys2Proof/Word.lean ====
section
/-! DEFINITION. The word types of the block: 32-bit registers and command words (R60, R80), bytes (R10). -/

namespace Sys2Proof

/-- A host register, a command word, a duration in µs (R60, R80, R82). -/
abbrev Word := BitVec 32

/-- A `u8` of the spec (R10): the direction byte, the external register's two bytes, the angle. -/
abbrev Byte := BitVec 8

end Sys2Proof
end

