-- ==== Sys2Proof/Syntax.lean ====
section
/-! DEFINITION. The commands of spec/opcode_table.json (R83, R88), one constructor for each mnemonic. -/

namespace Sys2Proof

/-- A rotation direction (R10, R23): Clockwise or Counterclockwise. -/
inductive Dir where
  | cw
  | ccw
  deriving DecidableEq, Repr

/-- A command with the fields its opcode reads (R83, R84). The table's five ILLEGAL rows (opcodes 0xB to 0xF) and
the words with a reserved bit set are one command, ILLEGAL (R88, R104): `illegal` carries the word, whose opcode
names its row (log 17). -/
inductive Instr where
  /-- NOP (R103). -/
  | nop
  /-- SET_MOTOR(SLOT, DIR, FLG) (R114). -/
  | setMotor (slot : BitVec 3) (dir : Dir) (flg : Bool)
  /-- GET_MOTOR(SLOT) (R115). -/
  | getMotor (slot : BitVec 3)
  /-- BIND_REG_LINES (R141). -/
  | bindRegLines
  /-- SET_DIRECTION(SLOT, DIR) (R116). -/
  | setDirection (slot : BitVec 3) (dir : Dir)
  /-- INVERT_DIRECTION(SLOT) (R117). -/
  | invertDirection (slot : BitVec 3)
  /-- SERIALIZE (R144). -/
  | serialize
  /-- START(SLOT, FLG) (R174); PERIOD and WIDTH are operand registers. -/
  | start (slot : BitVec 3) (flg : Bool)
  /-- STOP(SLOT) (R175). -/
  | stop (slot : BitVec 3)
  /-- BIND_SERVO_LINE (R203). -/
  | bindServoLine
  /-- SET_ANGLE(ANGLE) (R204). -/
  | setAngle (angle : Byte)
  /-- ILLEGAL (R104): `word` has a reserved bit set or a reserved opcode. -/
  | illegal (word : Word)
  deriving DecidableEq, Repr

end Sys2Proof
end

