-- ==== Sys2Proof/WellFormed.lean ====
section
/-! DEFINITION. Which terms of `Instr` are commands. The field widths are in the types (R80); what is left to check
is that an `illegal` term carries a word the decoder calls ILLEGAL (R85, R86). -/

namespace Sys2Proof

/-- RSV1 ([15:9]) or RSV2 ([31:24]) is not 0 (R81, R85). -/
def reservedBitSet (c : Word) : Bool :=
  c.extractLsb' 9 7 != 0 || c.extractLsb' 24 8 != 0

/-- OP is one of 0xB .. 0xF (R86). -/
def reservedOpcode (c : Word) : Bool :=
  0xB ≤ (c.extractLsb' 0 4).toNat

/-- The word is an ILLEGAL command (R104). -/
def illegalWord (c : Word) : Bool :=
  reservedBitSet c || reservedOpcode c

/-- The well-formed commands. -/
def Instr.wf : Instr → Bool
  | .nop => true
  | .setMotor _ _ _ => true
  | .getMotor _ => true
  | .bindRegLines => true
  | .setDirection _ _ => true
  | .invertDirection _ => true
  | .serialize => true
  | .start _ _ => true
  | .stop _ => true
  | .bindServoLine => true
  | .setAngle _ => true
  | .illegal w => illegalWord w

end Sys2Proof
end

