-- ==== Sys2Proof/Decode.lean ====
section
/-! DEFINITION. The decoder of command words (R80, R81, R88), total, its form over bytes (R63), and after it the
encoder (R80, R83, R89). -/

namespace Sys2Proof

/-- A direction bit: 0 = CW, 1 = CCW (R23, R80). -/
def Dir.ofBit (b : Bool) : Dir := if b then .ccw else .cw

/-- The bit of a direction: 0 = CW, 1 = CCW (R23, R80). -/
def Dir.bit : Dir → Bool
  | .cw => false
  | .ccw => true

/-- OP = c[3:0] (R81). -/
def opField (c : Word) : BitVec 4 := c.extractLsb' 0 4

/-- SLOT = c[6:4], unsigned (R81). -/
def slotField (c : Word) : BitVec 3 := c.extractLsb' 4 3

/-- DIR = c[7] (R81). -/
def dirField (c : Word) : Dir := Dir.ofBit (c.getLsbD 7)

/-- FLG = c[8] (R81). -/
def flgField (c : Word) : Bool := c.getLsbD 8

/-- ANGLE = c[23:16], unsigned (R81). -/
def angleField (c : Word) : Byte := c.extractLsb' 16 8

/-- `Decode` (R88). It never depends on state, and an unread field is ignored (R84). -/
def decodeWord (c : Word) : Instr :=
  if reservedBitSet c then .illegal c
  else match (opField c).toNat with
    | 0x0 => .nop
    | 0x1 => .setMotor (slotField c) (dirField c) (flgField c)
    | 0x2 => .getMotor (slotField c)
    | 0x3 => .bindRegLines
    | 0x4 => .setDirection (slotField c) (dirField c)
    | 0x5 => .invertDirection (slotField c)
    | 0x6 => .serialize
    | 0x7 => .start (slotField c) (flgField c)
    | 0x8 => .stop (slotField c)
    | 0x9 => .bindServoLine
    | 0xA => .setAngle (angleField c)
    | _ => .illegal c

/-- Why bytes hold no command word. -/
inductive DecodeError where
  /-- Fewer than four bytes: every command is one whole 32-bit word (R87). -/
  | truncated
  deriving DecidableEq, Repr

/-- Four byte lanes as a word, lane k at bits [8k+7:8k] (R63). -/
def wordOfLanes (b0 b1 b2 b3 : Byte) : Word := b3 ++ b2 ++ b1 ++ b0

/-- Lane `k` of a word (R63). -/
def lane (w : Word) (k : Nat) : Byte := w.extractLsb' (8 * k) 8

/-- The four lanes of a word, lane 0 first (R63). -/
def wordLanes (w : Word) : List Byte := [lane w 0, lane w 1, lane w 2, lane w 3]

/-- The decoder over byte lanes: one command and the bytes after it, or the name of what is wrong. -/
def decodeBytes : List Byte → Except DecodeError (Instr × List Byte)
  | b0 :: b1 :: b2 :: b3 :: rest => .ok (decodeWord (wordOfLanes b0 b1 b2 b3), rest)
  | _ => .error .truncated

/-- The decoder on bits numbered as spec/opcode_table.json numbers them; the bits above `nbits` are 0. -/
def decodeTableWord (nbits w : Nat) : Option Instr :=
  if nbits ≤ 32 then
    match decodeBytes (wordLanes (BitVec.ofNat 32 (w % 2 ^ nbits))) with
    | .ok (i, _) => some i
    | .error _ => none
  else none

/-- The CMD format (R80), most significant field first; the reserved fields are 0. -/
def cmdWord (op : BitVec 4) (slot : BitVec 3) (dir : Dir) (flg : Bool) (angle : Byte) : Word :=
  (0#8 ++ angle ++ 0#7 ++ BitVec.ofBool flg ++ BitVec.ofBool dir.bit ++ slot ++ op : BitVec (8 + 8 + 7 + 1 + 1 + 3 + 4))

/-- The canonical word of a command: every field its opcode does not read is 0 (R83, R89). -/
def encode : Instr → Word
  | .nop => cmdWord 0x0 0 .cw false 0
  | .setMotor slot dir flg => cmdWord 0x1 slot dir flg 0
  | .getMotor slot => cmdWord 0x2 slot .cw false 0
  | .bindRegLines => cmdWord 0x3 0 .cw false 0
  | .setDirection slot dir => cmdWord 0x4 slot dir false 0
  | .invertDirection slot => cmdWord 0x5 slot .cw false 0
  | .serialize => cmdWord 0x6 0 .cw false 0
  | .start slot flg => cmdWord 0x7 slot .cw flg 0
  | .stop slot => cmdWord 0x8 slot .cw false 0
  | .bindServoLine => cmdWord 0x9 0 .cw false 0
  | .setAngle angle => cmdWord 0xA 0 .cw false angle
  | .illegal w => w

end Sys2Proof
end

