-- ==== Sys2Proof/Config.lean ====
section
/-! DEFINITION. What the spec fixes for every block (R5), the default servo end points (R200), and the free
values: constants without a body, so that nothing can be proved of what they are. -/

namespace Sys2Proof.Config

/-- SERVO_PERIOD_US, 20 ms (R5, R200). -/
def servoPeriodUs : Nat := 20000

/-- The default SERVO_MIN_US (R200). -/
def defaultServoMinUs : Nat := 1000

/-- The default SERVO_MAX_US (R200). -/
def defaultServoMaxUs : Nat := 2000

/-- FREE VALUE. `srChain` at power-up: "a draw (any 8-bit values)" (R36, R261; log 5). -/
opaque powerUpChain : Byte

/-- FREE VALUE. `srStore` at power-up: "a draw (any 8-bit values)" (R36, R261; log 5). -/
opaque powerUpStore : Byte

/-- FREE VALUE. `ch[n].origin` after a reset in clock step `cycle`: "unspecified" (R25; log 6). -/
opaque freeOrigin (cycle n : Nat) : Nat

/-- FREE VALUE. The level of `acq_grant` in clock step `cycle`, where no scheduled level says it (R9, D17; log 7). -/
opaque freeGrant (cycle : Nat) : Bool

/-- FREE VALUE. Whether `tick_us` is 1 in clock step `cycle`, where no scheduled level says it: how ticks and
clock steps relate is open with T_STEP (R5, R238; log 8). -/
opaque freeTick (cycle : Nat) : Bool

end Sys2Proof.Config
end

