-- ==== Sys2Proof/Machine/State.lean ====
section
/-! DEFINITION. The state of the block (R20), of its environment (R36, R238, R150) and of its ports (R15), the reset
state (R260), and the reasons a step can stop. -/

namespace Sys2Proof.Machine

/-- Why the model stops with a fault. The block itself has no fault: no command can leave it stuck (R235). -/
inductive Fault where
  /-- Raised by a meaning whose procedure has no step at the sequencer's phase. No run from a state that meets
  `Safety.Inv` raises it. Safe: the model stops where the spec describes no machine (R34, R101; log 13). -/
  | noSuchPhase
  deriving DecidableEq, Repr

/-- Why the model refuses. -/
inductive Refusal where
  /-- Raised by `exec` for a command without a meaning; no command of this model is left so. Safe. -/
  | notModelled (mnemonic : String)
  /-- Raised by `step` for a host access whose byte address is not a multiple of 4: "a model that takes byte
  addresses refuses" it (R62). Safe: no bus access of the block carries such an address. -/
  | misalignedAccess
  /-- Raised by `step` for a host access of another width than 4 bytes (R62). Safe, as above. -/
  | accessWidth
  deriving DecidableEq, Repr

/-- A motor's run status (R24). -/
inductive Run where
  | idle
  | running
  | pwm
  deriving DecidableEq, Repr

/-- The level a line element holds (R29): L or H. -/
inductive Drive where
  | l
  | h
  deriving DecidableEq, Repr

/-- The level of an output port (R10): Z means that the block does not drive the pin. -/
inductive Level where
  | z
  | l
  | h
  deriving DecidableEq, Repr

/-- The three register lines (R140). -/
inductive Pin where
  | ser
  | srclk
  | rclk
  deriving DecidableEq, Repr

/-- The four motor slots (R5). -/
inductive SlotId where
  | s1
  | s2
  | s3
  | s4
  deriving DecidableEq, Repr

/-- The five PWM channels (R5): 1 to 4 for the slots, 5 for the servo. -/
inductive ChanId where
  | c1
  | c2
  | c3
  | c4
  | c5
  deriving DecidableEq, Repr

/-- A motor slot record (R21). -/
structure Slot where
  occ : Bool
  dir : Dir
  run : Run
  line : Bool
  deriving DecidableEq, Repr

/-- `slot[1..4]`. -/
structure Slots where
  s1 : Slot
  s2 : Slot
  s3 : Slot
  s4 : Slot
  deriving DecidableEq, Repr

/-- A PWM channel record (R25): period and active width in µs, and the tick the waveform started at. -/
structure Channel where
  period : Word
  width : Word
  origin : Nat
  deriving DecidableEq, Repr

/-- `ch[1..5]`. -/
structure Channels where
  c1 : Channel
  c2 : Channel
  c3 : Channel
  c4 : Channel
  c5 : Channel
  deriving DecidableEq, Repr

/-- The sequencer (R34): `Idle`, or command word `c` at step `k`. -/
inductive Seq where
  | idle
  | exec (c : Word) (k : Nat)
  deriving DecidableEq, Repr

/-- An event of the pin-event trace (R150). -/
inductive Event where
  /-- A `PinWrite`. -/
  | pin (p : Pin) (lvl : Drive)
  /-- A successful BIND_REG_LINES. -/
  | bind
  /-- A reset. -/
  | reset
  deriving DecidableEq, Repr

/-- What the host does on the bus in one clock step, or in several while a write is held (R62, R64 to R66). -/
inductive Access where
  /-- No access in this clock step. -/
  | idle
  /-- `MemRead(addr, width)`. -/
  | read (addr : Word) (width : Nat)
  /-- `MemWrite(addr, width, v)`. -/
  | write (addr : Word) (width : Nat) (v : Word)
  /-- The pseudo-instruction `wait`: read STATUS until bit 0 is 0 (R90). -/
  | wait
  deriving DecidableEq, Repr

/-- The levels of the inputs in one clock step (R15). -/
structure ClkIn where
  rst : Bool
  tick : Bool
  grant : Bool
  deriving DecidableEq, Repr

/-- The OPEN parameters SERVO_MIN_US and SERVO_MAX_US (R200). -/
structure ServoCal where
  minUs : Nat
  maxUs : Nat
  deriving DecidableEq, Repr

/-- Everything the spec gives the machine, as plain data. -/
structure State where
  /-- `slot[1..4]` (R21). -/
  slots : Slots
  /-- `ch[1..5]` (R25). -/
  chans : Channels
  /-- The direction byte (R26). -/
  dirByte : Byte
  /-- The three register lines are bound (R28). -/
  regBound : Bool
  /-- The level last driven on SER (R29). -/
  serLvl : Drive
  /-- The level last driven on SRCLK (R29). -/
  clkLvl : Drive
  /-- The level last driven on RCLK (R29). -/
  latLvl : Drive
  /-- SERVO_OUT is bound (R30). -/
  servoBound : Bool
  /-- Channel 5 is in PWM mode (R30). -/
  servoActive : Bool
  /-- The last accepted angle (R30). -/
  servoAngle : Byte
  /-- The operand register PERIOD (R31). -/
  period : Word
  /-- The operand register WIDTH (R31). -/
  width : Word
  /-- STATUS.ERR (R32). -/
  err : BitVec 4
  /-- STATUS.DIAG (R32). -/
  diag : Bool
  /-- STATUS.SETUP_FAULT (R32). -/
  setupFault : Bool
  /-- RESULT (R33). -/
  result : Word
  /-- The sequencer (R34). -/
  seq : Seq
  /-- The external register's chain (R36): environment. -/
  srChain : Byte
  /-- The external register's storage register (R36): environment. -/
  srStore : Byte
  /-- Ticks since reset (R238). -/
  time : Nat
  /-- The pin-event trace, oldest event first (R150). -/
  trace : List Event
  /-- The servo end points (R200): configuration, which no step writes (log 10). -/
  cal : ServoCal
  /-- The level of the input `acq_grant` in this clock step (R15). -/
  acqGrant : Bool
  /-- The last clock step asserted `acq_req` (R15). -/
  acqReq : Bool
  /-- What the last host read returned on `bus_rdata` (R15, R64). DESIGN CHOICE (log 27): it stays until the next read,
  and no reset clears it. -/
  busRdata : Word
  /-- The host's accesses not yet served, oldest first (R67; log 15). -/
  host : List Access
  /-- The input levels of the coming clock steps; where it ends, the free draws begin (logs 7, 8, 9). -/
  clkIn : List ClkIn
  /-- Clock steps so far: the index of the free draws. -/
  cycle : Nat
  deriving DecidableEq, Repr

/-- An empty slot (R21). -/
def Slot.empty : Slot := { occ := false, dir := .cw, run := .idle, line := false }

/-- A channel after a reset in clock step `cycle` (R25): nothing programmed, the origin a free value (log 6). -/
def Channel.atReset (cycle n : Nat) : Channel :=
  { period := 0, width := 0, origin := Config.freeOrigin cycle n }

/-- The state at power-up: the block's reset (R260, R262), an external register that no reset clears (R261), no
host access and no scheduled input. -/
def State.reset : State where
  slots := { s1 := Slot.empty, s2 := Slot.empty, s3 := Slot.empty, s4 := Slot.empty }
  chans :=
    { c1 := Channel.atReset 0 1, c2 := Channel.atReset 0 2, c3 := Channel.atReset 0 3,
      c4 := Channel.atReset 0 4, c5 := Channel.atReset 0 5 }
  dirByte := 0
  regBound := false
  serLvl := .l
  clkLvl := .l
  latLvl := .l
  servoBound := false
  servoActive := false
  servoAngle := 0
  period := 0
  width := 0
  err := 0
  diag := false
  setupFault := false
  result := 0
  seq := .idle
  srChain := Config.powerUpChain
  srStore := Config.powerUpStore
  time := 0
  trace := []
  cal := { minUs := Config.defaultServoMinUs, maxUs := Config.defaultServoMaxUs }
  acqGrant := Config.freeGrant 0
  acqReq := false
  busRdata := 0
  host := []
  clkIn := []
  cycle := 0

end Sys2Proof.Machine
end

