-- ==== Sys2Proof/Machine/Operands.lean ====
section
/-! DEFINITION. The operand forms: slot numbers, slot and channel records, PWM pairs, angles, and the number codes
of the record fields (R8, R10, R113, R170, R201). -/

namespace Sys2Proof.Machine

/-- The slot a SLOT field names, where `valid(s) = (1 ≤ s ≤ 4)` (R113). -/
def SlotId.ofField (s : BitVec 3) : Option SlotId :=
  match s.toNat with
  | 1 => some .s1
  | 2 => some .s2
  | 3 => some .s3
  | 4 => some .s4
  | _ => none

/-- The number of a slot, as a SLOT field (R5). -/
def SlotId.num : SlotId → BitVec 3
  | .s1 => 1
  | .s2 => 2
  | .s3 => 3
  | .s4 => 4

/-- The channel that drives a slot's output line (R25). -/
def SlotId.chan : SlotId → ChanId
  | .s1 => .c1
  | .s2 => .c2
  | .s3 => .c3
  | .s4 => .c4

/-- `slot[s]` (R8). -/
def Slots.get (b : Slots) : SlotId → Slot
  | .s1 => b.s1
  | .s2 => b.s2
  | .s3 => b.s3
  | .s4 => b.s4

/-- `slot[s] <- v` (R8). -/
def Slots.set (b : Slots) (s : SlotId) (v : Slot) : Slots :=
  match s with
  | .s1 => { b with s1 := v }
  | .s2 => { b with s2 := v }
  | .s3 => { b with s3 := v }
  | .s4 => { b with s4 := v }

/-- `ch[n]` (R8). -/
def Channels.get (b : Channels) : ChanId → Channel
  | .c1 => b.c1
  | .c2 => b.c2
  | .c3 => b.c3
  | .c4 => b.c4
  | .c5 => b.c5

/-- `ch[n] <- v` (R8). -/
def Channels.set (b : Channels) (n : ChanId) (v : Channel) : Channels :=
  match n with
  | .c1 => { b with c1 := v }
  | .c2 => { b with c2 := v }
  | .c3 => { b with c3 := v }
  | .c4 => { b with c4 := v }
  | .c5 => { b with c5 := v }

/-- The occupied slot that a SLOT field names: none where the field is out of 1..4 or the slot is empty (the check
`not valid(s) or slot[s].occ = 0`). -/
def State.occupied (s : State) (slot : BitVec 3) : Option SlotId :=
  match SlotId.ofField slot with
  | some id => if (s.slots.get id).occ then some id else none
  | none => none

/-- The other direction (R117). -/
def Dir.flip : Dir → Dir
  | .cw => .ccw
  | .ccw => .cw

/-- The code of a run status (R24). -/
def Run.code : Run → BitVec 2
  | .idle => 0
  | .running => 1
  | .pwm => 2

/-- `isRunning()`: Running or PWM (R176). -/
def Run.isRunning : Run → Bool
  | .idle => false
  | .running => true
  | .pwm => true

/-- `ValidPwm(p, w) = (p ≥ 1) and (w ≤ p)` (R170). -/
def validPwm (p w : Word) : Bool :=
  1 ≤ p.toNat && w.toNat ≤ p.toNat

/-- The end points meet `0 ≤ SERVO_MIN_US ≤ SERVO_MAX_US ≤ 20000` (R200). -/
def ServoCal.ok (cal : ServoCal) : Bool :=
  cal.minUs ≤ cal.maxUs && cal.maxUs ≤ Config.servoPeriodUs

/-- The angle is above 180 (R204). -/
def angleOutOfRange (a : Byte) : Bool := 180 < a.toNat

/-- `AngleToWidth` (R201): the product first, one division, rounded toward zero. -/
def angleToWidth (cal : ServoCal) (a : Byte) : Word :=
  BitVec.ofNat 32 (cal.minUs + a.toNat * (cal.maxUs - cal.minUs) / 180)

/-- SERVO_PERIOD_US as channel 5 holds it (R200, R204). -/
def servoPeriod : Word := BitVec.ofNat 32 Config.servoPeriodUs

end Sys2Proof.Machine
end

