-- ==== Sys2Proof/Machine/Encoder.lean ====
section
/-! DEFINITION. The direction encoder: the fixed bit table (R110) and `Encode` (R111). -/

namespace Sys2Proof.Machine

/-- The direction bit table (R110). -/
def dirBit : SlotId → Dir → Byte
  | .s1, .cw => 0b00000100
  | .s1, .ccw => 0b00001000
  | .s2, .cw => 0b00000010
  | .s2, .ccw => 0b00010000
  | .s3, .cw => 0b00000001
  | .s3, .ccw => 0b01000000
  | .s4, .cw => 0b00100000
  | .s4, .ccw => 0b10000000

/-- What one slot puts into the byte: "An empty slot contributes 0" (R111). -/
def slotBits (id : SlotId) (v : Slot) : Byte :=
  if v.occ then dirBit id v.dir else 0

/-- `Encode(slot[1..4])` (R111). -/
def encodeDirs (b : Slots) : Byte :=
  slotBits .s1 b.s1 ||| slotBits .s2 b.s2 ||| slotBits .s3 b.s3 ||| slotBits .s4 b.s4

/-- Write a slot record and, in the same step, `dirByte <- Encode(slot)` (R27). -/
def State.setSlotDir (s : State) (id : SlotId) (v : Slot) : State :=
  { s with slots := s.slots.set id v, dirByte := encodeDirs (s.slots.set id v) }

end Sys2Proof.Machine
end

