-- ==== Sys2Proof/Machine/Flags.lean ====
section
/-! DEFINITION. The status fields: the result codes (R230), BUSY (R34), the end of a command (R100), and the words
that show status and records (R61, R115). -/

namespace Sys2Proof.Machine

/-- The errors a command can raise (R230). -/
inductive Err where
  | idxOutOfBounds
  | idxNotFound
  | cfgRegLines
  | cfgPin
  | range
  | setup
  | illegal
  deriving DecidableEq, Repr

/-- The result code of an error (R230). -/
def Err.code : Err → BitVec 4
  | .idxOutOfBounds => 1
  | .idxNotFound => 2
  | .cfgRegLines => 3
  | .cfgPin => 4
  | .range => 5
  | .setup => 6
  | .illegal => 7

/-- `BUSY = 1` exactly when `seq ≠ Idle` (R34). -/
def State.busy (s : State) : Bool :=
  match s.seq with
  | .idle => false
  | .exec _ _ => true

/-- The last step of a command that raised nothing: ERR <- OK, DIAG <- diag, seq <- Idle (R100). -/
def State.finish (diag : Bool) (s : State) : State :=
  { s with err := 0, diag := diag, seq := .idle }

/-- The STATUS register: [0] BUSY, [7:4] ERR, [8] DIAG, [9] SETUP_FAULT, [10] REG_BOUND, [11] SERVO_BOUND (R61). -/
def statusWord (s : State) : Word :=
  (0#20 ++ BitVec.ofBool s.servoBound ++ BitVec.ofBool s.regBound ++ BitVec.ofBool s.setupFault ++
    BitVec.ofBool s.diag ++ s.err ++ 0#3 ++ BitVec.ofBool s.busy : BitVec (20 + 1 + 1 + 1 + 1 + 4 + 3 + 1))

/-- A SLOTn_STATE register: [0] OCC, [1] DIR, [3:2] RUN, [4] LINE (R61). -/
def slotStateWord (v : Slot) : Word :=
  (0#27 ++ BitVec.ofBool v.line ++ v.run.code ++ BitVec.ofBool v.dir.bit ++ BitVec.ofBool v.occ :
    BitVec (27 + 1 + 2 + 1 + 1))

/-- RESULT after a GET_MOTOR of slot `num`: [10:8] SLOT, [4] LINE, [3:2] RUN, [1] DIR, [0] OCC = 1 (R115). -/
def resultWord (num : BitVec 3) (v : Slot) : Word :=
  (0#21 ++ num ++ 0#3 ++ BitVec.ofBool v.line ++ v.run.code ++ BitVec.ofBool v.dir.bit ++ 1#1 :
    BitVec (21 + 3 + 3 + 1 + 2 + 1 + 1))

/-- SERVO_STATE: [0] BOUND, [1] ACTIVE, [15:8] ANGLE (R61). -/
def servoStateWord (s : State) : Word :=
  (0#16 ++ s.servoAngle ++ 0#6 ++ BitVec.ofBool s.servoActive ++ BitVec.ofBool s.servoBound :
    BitVec (16 + 8 + 6 + 1 + 1))

end Sys2Proof.Machine
end

