-- ==== Sys2Proof/Machine/Ports.lean ====
section
/-! DEFINITION. The output ports as functions of the state (R35, R66, R148, R171), and the external shift register's
reaction to the pins (R145). -/

namespace Sys2Proof.Machine

/-- A driven level as a pin level. -/
def Drive.level : Drive → Level
  | .l => .l
  | .h => .h

/-- The level element of a register line (R29). -/
def State.lvl (s : State) : Pin → Drive
  | .ser => s.serLvl
  | .srclk => s.clkLvl
  | .rclk => s.latLvl

/-- SER, SRCLK, RCLK: driven only while `regBound = 1` (R35). -/
def State.pinLevel (s : State) (p : Pin) : Level :=
  if s.regBound then (s.lvl p).level else .z

/-- `Wave(ch, t) = (((t - t0) mod p) < w) ? H : L` (R171). -/
def wave (ch : Channel) (t : Nat) : Level :=
  if (t - ch.origin) % ch.period.toNat < ch.width.toNat then .h else .l

/-- OUT1 .. OUT4 (R35). -/
def State.outLevel (s : State) (id : SlotId) : Level :=
  if (s.slots.get id).line then
    match (s.slots.get id).run with
    | .idle => .l
    | .running => .h
    | .pwm => wave (s.chans.get id.chan) s.time
  else .z

/-- SERVO_OUT (R35). -/
def State.servoLevel (s : State) : Level :=
  if s.servoBound then (if s.servoActive then wave s.chans.c5 s.time else .l) else .z

/-- Output `i` of the external register carries `srStore[i]` (R148). -/
def State.parallelOut (s : State) (i : Fin 8) : Bool :=
  s.srStore.getLsbD i.val

/-- `bus_ready`: 0 exactly while a write is held (R15, R66), 1 on every other access. DESIGN CHOICE (log 26): 1 also in
a clock step without an access, where the spec gives no level. -/
def State.busReady (s : State) : Bool :=
  match s.host with
  | .write _ _ _ :: _ => !s.busy
  | _ => true

/-- Pin `p` goes L -> H between two states (R145). -/
def rises (before after : State) (p : Pin) : Bool :=
  decide (before.pinLevel p = .l) && decide (after.pinLevel p = .h)

/-- `srChain[6:0] ++ b` (R145). -/
def shiftIn (chain : Byte) (b : Bool) : Byte :=
  (chain.extractLsb' 0 7 ++ BitVec.ofBool b : BitVec (7 + 1))

/-- `srChain` after a step: one bit in on a rising SRCLK edge, else unchanged (R145). -/
def nextChain (before after : State) : Byte :=
  if rises before after .srclk then shiftIn before.srChain (decide (after.pinLevel .ser = .h))
  else before.srChain

/-- `srStore` after a step: the chain on a rising RCLK edge, else unchanged (R145). -/
def nextStore (before after : State) : Byte :=
  if rises before after .rclk then before.srChain else before.srStore

end Sys2Proof.Machine
end

