-- ==== Sys2Proof/Machine/Ops.lean ====
section
/-! DEFINITION. The shared operations of the command procedures: raising an error (R231), acquiring a line (R9), pin
writes (R9, R142), the step partition (R101), and reset (R260). -/

namespace Sys2Proof.Machine

/-- `raise E()` (R231): the code, DIAG = 0, SETUP_FAULT on a SETUP error, the sequencer Idle, and nothing else. There
is no way back from it to write: no trap entry, no return (R237). -/
def State.raise (e : Err) (s : State) : State :=
  { s with
    err := e.code
    diag := false
    setupFault := s.setupFault || decide (e = .setup)
    seq := .idle }

/-- `acq_req <- 1`, the request of a line acquisition (R15); the answer is `acqGrant` of the same step (R9). -/
def State.request (s : State) : State := { s with acqReq := true }

/-- The step of a command the sequencer is at (R34). An Idle sequencer is at step 0 of the command it is given (log 14). -/
def State.phase (s : State) : Nat :=
  match s.seq with
  | .idle => 0
  | .exec _ k => k

/-- The command word in the sequencer; for an Idle sequencer the canonical word of the command it is given (log 14). -/
def State.word (s : State) (i : Instr) : Word :=
  match s.seq with
  | .idle => encode i
  | .exec c _ => c

/-- Advance to the next step of command `i`: `Exec(c, k+1)` (R34). -/
def State.advance (i : Instr) (s : State) : State :=
  { s with seq := .exec (s.word i) (s.phase + 1) }

/-- Set a register line's level element (R29). -/
def State.setLvl (s : State) (p : Pin) (lvl : Drive) : State :=
  match p with
  | .ser => { s with serLvl := lvl }
  | .srclk => { s with clkLvl := lvl }
  | .rclk => { s with latLvl := lvl }

/-- `PinWrite(p, lvl)` (R9): the level element, one trace event whether or not the level changes, and the external
register's reaction to the pins this step leaves (R145). -/
def State.pinWrite (s : State) (p : Pin) (lvl : Drive) : State :=
  { s.setLvl p lvl with
    trace := s.trace ++ [Event.pin p lvl]
    srChain := nextChain s (s.setLvl p lvl)
    srStore := nextStore s (s.setLvl p lvl) }

/-- The level that carries a bit on SER: H for 1, L for 0 (R142). -/
def bitLvl (b : Byte) (i : Nat) : Drive := if b.getLsbD i then .h else .l

/-- The 26 pin writes of one `Serialize()` of byte `b`, MSB first (R142, R143, R150). -/
def pushWrites (b : Byte) : List (Pin × Drive) :=
  [(.rclk, .l)] ++
  [7, 6, 5, 4, 3, 2, 1, 0].flatMap (fun i => [(.srclk, .l), (.ser, bitLvl b i), (.srclk, .h)]) ++
  [(.rclk, .h)]

/-- Pin write number `j` (from 0) of the push of `dirByte` (R142). Nothing writes `dirByte` during a push, so reading
it at each write is the byte sampled at the first (R151; log 12). -/
def State.pushWrite (s : State) (j : Nat) : State :=
  match (pushWrites s.dirByte)[j]? with
  | some (p, lvl) => s.pinWrite p lvl
  | none => s

/-- What step 0 of a procedure comes to: an error raised, the whole command done, or a push to follow. -/
inductive Step0 where
  | raised (e : Err) (s : State)
  | done (diag : Bool) (s : State)
  | push (s : State)
  deriving DecidableEq, Repr

/-- The state after step 0 of command `i` (R100, R101). -/
def Step0.close (i : Instr) : Step0 → State
  | .raised e s => s.raise e
  | .done diag s => s.finish diag
  | .push s => s.advance i

/-- A command whose procedure is one step (R101, R269). -/
def oneStep (i : Instr) (body : State → Step0) (s : State) : Host.Outcome State Fault Refusal :=
  match s.phase with
  | 0 => .next ((body s).close i)
  | _ + 1 => .fault .noSuchPhase

/-- A serializing command without a drive step: step 0, then 26 pin writes in steps 1 to 26, the last of which ends
the command (R101, R269). -/
def pushCommand (i : Instr) (body : State → Step0) (s : State) : Host.Outcome State Fault Refusal :=
  match s.phase with
  | 0 => .next ((body s).close i)
  | j + 1 =>
    if j < 25 then .next ((s.pushWrite j).advance i)
    else if j = 25 then .next ((s.pushWrite j).finish false)
    else .fault .noSuchPhase

/-- A serializing command with a drive step: step 0, 26 pin writes in steps 1 to 26, and the statements after the last
pin write as step 27 (R101, R269). -/
def pushThenDrive (i : Instr) (body : State → Step0) (drive : State → State) (s : State) :
    Host.Outcome State Fault Refusal :=
  match s.phase with
  | 0 => .next ((body s).close i)
  | j + 1 =>
    if j < 26 then .next ((s.pushWrite j).advance i)
    else if j = 26 then .next ((drive s).finish false)
    else .fault .noSuchPhase

/-- Reset (R260): every block element at its reset value, the command in progress abandoned, the (RESET) event, time
counted anew (R238). The external register, the parameters and the outside world are untouched (R20, R261). -/
def State.applyReset (s : State) : State :=
  { s with
    slots := { s1 := Slot.empty, s2 := Slot.empty, s3 := Slot.empty, s4 := Slot.empty }
    chans :=
      { c1 := Channel.atReset s.cycle 1, c2 := Channel.atReset s.cycle 2, c3 := Channel.atReset s.cycle 3,
        c4 := Channel.atReset s.cycle 4, c5 := Channel.atReset s.cycle 5 }
    dirByte := 0
    regBound := false
    serLvl := .l
    clkLvl := .l
    latLvl := .l
    servoBound := false
    servoActive := false
    servoAngle := 0
    period := 0
    width := 0
    err := 0
    diag := false
    setupFault := false
    result := 0
    seq := .idle
    time := 0
    trace := s.trace ++ [Event.reset] }

end Sys2Proof.Machine
end

