-- ==== Sys2Proof/Machine/Bus.lean ====
section
/-! DEFINITION. The register space and the host bus (R60 to R66). -/

namespace Sys2Proof.Machine

/-- The registers of the map (R61). -/
inductive Reg where
  | cmd
  | period
  | width
  | status
  | dirbyte
  | result
  | servoState
  | slotState (id : SlotId)
  | chPeriod (id : ChanId)
  | chWidth (id : ChanId)
  deriving DecidableEq, Repr

/-- The byte address of a register (R61). -/
def Reg.offset : Reg → Nat
  | .cmd => 0x00
  | .period => 0x04
  | .width => 0x08
  | .status => 0x0C
  | .dirbyte => 0x10
  | .result => 0x14
  | .servoState => 0x18
  | .slotState .s1 => 0x20
  | .slotState .s2 => 0x24
  | .slotState .s3 => 0x28
  | .slotState .s4 => 0x2C
  | .chPeriod .c1 => 0x40
  | .chWidth .c1 => 0x44
  | .chPeriod .c2 => 0x48
  | .chWidth .c2 => 0x4C
  | .chPeriod .c3 => 0x50
  | .chWidth .c3 => 0x54
  | .chPeriod .c4 => 0x58
  | .chWidth .c4 => 0x5C
  | .chPeriod .c5 => 0x60
  | .chWidth .c5 => 0x64

/-- Every register of the map. -/
def Reg.all : List Reg :=
  [.cmd, .period, .width, .status, .dirbyte, .result, .servoState,
   .slotState .s1, .slotState .s2, .slotState .s3, .slotState .s4,
   .chPeriod .c1, .chWidth .c1, .chPeriod .c2, .chWidth .c2, .chPeriod .c3, .chWidth .c3,
   .chPeriod .c4, .chWidth .c4, .chPeriod .c5, .chWidth .c5]

/-- The register at a byte address: none at a reserved or outside offset (R61, R64). -/
def Reg.find (addr : Word) : Option Reg :=
  Reg.all.find? (fun r => r.offset == addr.toNat)

/-- The word a register shows (R61); CMD is write-only and reads 0. -/
def Reg.value (s : State) : Reg → Word
  | .cmd => 0
  | .period => s.period
  | .width => s.width
  | .status => statusWord s
  | .dirbyte => s.dirByte.setWidth 32
  | .result => s.result
  | .servoState => servoStateWord s
  | .slotState id => slotStateWord (s.slots.get id)
  | .chPeriod id => (s.chans.get id).period
  | .chWidth id => (s.chans.get id).width

/-- `MemRead(addr, 4)` (R64): reserved and outside offsets read 0. -/
def readReg (s : State) (addr : Word) : Word :=
  match Reg.find addr with
  | some r => r.value s
  | none => 0

/-- An accepted `MemWrite(addr, 4, v)` (R65). -/
def writeReg (addr v : Word) (s : State) : State :=
  match Reg.find addr with
  | some .cmd => { s with seq := .exec v 0 }
  | some .period => { s with period := v }
  | some .width => { s with width := v }
  | _ => s

/-- Why an access cannot be expressed on the block's word-indexed bus (R62). -/
def badAccess (addr : Word) (width : Nat) : Option Refusal :=
  if width ≠ 4 then some .accessWidth
  else if addr.toNat % 4 ≠ 0 then some .misalignedAccess
  else none

/-- Why the host's next access is refused, if it is (R62). -/
def State.busRefusal (s : State) : Option Refusal :=
  match s.host with
  | .read addr width :: _ => badAccess addr width
  | .write addr width _ :: _ => badAccess addr width
  | _ => none

/-- The bus in one clock step: the host's next access is served, or held where it is a write and BUSY = 1 (R64 to
R66). A `wait` reads STATUS again until BUSY = 0 (R90). DESIGN CHOICE (log 27): in a clock step without a read (none, a
write served or held) `busRdata` keeps the last read's word, where the spec gives `bus_rdata` no value. -/
def State.serveBus (s : State) : State :=
  match s.host with
  | [] => s
  | .idle :: rest => { s with host := rest }
  | .read addr _ :: rest => { s with host := rest, busRdata := readReg s addr }
  | .write addr _ v :: rest => if s.busy then s else writeReg addr v { s with host := rest }
  | .wait :: rest =>
    { s with host := if s.busy then s.host else rest, busRdata := statusWord s }

end Sys2Proof.Machine
end

