-- ==== Sys2Proof/Machine/Clock.lean ====
section
/-! DEFINITION. The inputs of one clock step and what the clock itself does (R15, R238). -/

namespace Sys2Proof.Machine

/-- The input levels in this clock step: the scheduled ones, and after the schedule's end no reset (log 9), a free
tick and a free grant (logs 7, 8). -/
def State.inputs (s : State) : ClkIn :=
  match s.clkIn with
  | x :: _ => x
  | [] => { rst := false, tick := Config.freeTick s.cycle, grant := Config.freeGrant s.cycle }

/-- The clock step begins: a tick counts (R238), the grant input takes its level, `acq_req` is 0 until a command
raises it (R15). -/
def State.beginClock (s : State) : State :=
  { s with
    time := s.time + (if s.inputs.tick then 1 else 0)
    acqGrant := s.inputs.grant
    acqReq := false
    clkIn := s.clkIn.tail
    cycle := s.cycle + 1 }

/-- The reset input is not asserted in this schedule's next clock step. -/
def clearNextRst : List ClkIn → List ClkIn
  | [] => []
  | x :: rest => { x with rst := false } :: rest

end Sys2Proof.Machine
end

