-- ==== Sys2Proof/Machine/Control.lean ====
section
/-! DEFINITION. The control commands NOP (R103) and ILLEGAL (R104). -/

namespace Sys2Proof.Machine

/-- NOP (R103): ERR <- OK, DIAG <- 0, nothing else. -/
def execNop (s : State) : Host.Outcome State Fault Refusal :=
  oneStep .nop (fun s => .done false s) s

/-- ILLEGAL (R104): `raise Illegal()`, nothing else. -/
def execIllegal (word : Word) (s : State) : Host.Outcome State Fault Refusal :=
  oneStep (.illegal word) (fun s => .raised .illegal s) s

end Sys2Proof.Machine
end

