-- ==== Sys2Proof/Machine/Motor.lean ====
section
/-! DEFINITION. The motor drive commands START (R174) and STOP (R175). -/

namespace Sys2Proof.Machine

/-- `slot[s].run <- r`. -/
def State.setRun (s : State) (id : SlotId) (r : Run) : State :=
  { s with slots := s.slots.set id { s.slots.get id with run := r } }

/-- The checks of a command that drives a motor line, after the slot and range checks: the register lines, then the
motor line (R174, R175). -/
def driveChecks (s : State) (id : SlotId) : Step0 :=
  if s.regBound then
    if (s.slots.get id).line then .push s else .raised .cfgPin s
  else .raised .cfgRegLines s

/-- Step 0 of START (R174): slot, PWM pair with FLG = 0, register lines, motor line. -/
def startBody (slot : BitVec 3) (flg : Bool) (s : State) : Step0 :=
  match s.occupied slot with
  | none => .raised .idxNotFound s
  | some id =>
    if !flg && !validPwm s.period s.width then .raised .range s
    else driveChecks s id

/-- The drive step of START (R174). PERIOD and WIDTH cannot change while the command runs (R66), so reading them here
is the pair step 0 checked (log 12). -/
def startDrive (slot : BitVec 3) (flg : Bool) (s : State) : State :=
  match SlotId.ofField slot with
  | none => s
  | some id =>
    if flg then
      { s.setRun id .running with
        chans := s.chans.set id.chan { s.chans.get id.chan with period := 0, width := 0 } }
    else
      { s.setRun id .pwm with
        chans := s.chans.set id.chan { period := s.period, width := s.width, origin := s.time } }

/-- START (R174). -/
def execStart (slot : BitVec 3) (flg : Bool) (s : State) : Host.Outcome State Fault Refusal :=
  pushThenDrive (.start slot flg) (startBody slot flg) (startDrive slot flg) s

/-- Step 0 of STOP (R175). -/
def stopBody (slot : BitVec 3) (s : State) : Step0 :=
  match s.occupied slot with
  | none => .raised .idxNotFound s
  | some id => driveChecks s id

/-- The drive step of STOP (R175). -/
def stopDrive (slot : BitVec 3) (s : State) : State :=
  match SlotId.ofField slot with
  | none => s
  | some id => s.setRun id .idle

/-- STOP (R175). -/
def execStop (slot : BitVec 3) (s : State) : Host.Outcome State Fault Refusal :=
  pushThenDrive (.stop slot) (stopBody slot) (stopDrive slot) s

end Sys2Proof.Machine
end

