-- ==== Sys2Proof/Machine/MotorSlots.lean ====
section
/-! DEFINITION. The motor-slot commands SET_MOTOR (R114), GET_MOTOR (R115), SET_DIRECTION (R116) and
INVERT_DIRECTION (R117). -/

namespace Sys2Proof.Machine

/-- A new motor in a slot: occupied, Idle, its channel read-back cleared, the direction byte recomputed (R114). -/
def State.install (s : State) (id : SlotId) (dir : Dir) (flg : Bool) : State :=
  { s.setSlotDir id { occ := true, dir := dir, run := .idle, line := flg } with
    chans := s.chans.set id.chan { s.chans.get id.chan with period := 0, width := 0 } }

/-- Step 0 of SET_MOTOR (R114): the slot check, then with FLG = 1 the acquisition of OUTs. -/
def setMotorBody (slot : BitVec 3) (dir : Dir) (flg : Bool) (s : State) : Step0 :=
  match SlotId.ofField slot with
  | none => .raised .idxOutOfBounds s
  | some id =>
    if flg then
      if s.acqGrant then .done false (s.request.install id dir true)
      else .raised .setup s.request
    else .done false (s.install id dir false)

/-- SET_MOTOR (R114). -/
def execSetMotor (slot : BitVec 3) (dir : Dir) (flg : Bool) (s : State) : Host.Outcome State Fault Refusal :=
  oneStep (.setMotor slot dir flg) (setMotorBody slot dir flg) s

/-- Step 0 of GET_MOTOR (R115). -/
def getMotorBody (slot : BitVec 3) (s : State) : Step0 :=
  match s.occupied slot with
  | none => .raised .idxNotFound s
  | some id => .done false { s with result := resultWord id.num (s.slots.get id) }

/-- GET_MOTOR (R115). -/
def execGetMotor (slot : BitVec 3) (s : State) : Host.Outcome State Fault Refusal :=
  oneStep (.getMotor slot) (getMotorBody slot) s

/-- `slot[s].dir <- d`, and the direction byte in the same step (R116, R117). -/
def State.turn (s : State) (id : SlotId) (d : Dir) : State :=
  s.setSlotDir id { s.slots.get id with dir := d }

/-- Step 0 of SET_DIRECTION (R116). -/
def setDirectionBody (slot : BitVec 3) (dir : Dir) (s : State) : Step0 :=
  match s.occupied slot with
  | none => .raised .idxNotFound s
  | some id => if s.regBound then .push (s.turn id dir) else .raised .cfgRegLines s

/-- SET_DIRECTION (R116). -/
def execSetDirection (slot : BitVec 3) (dir : Dir) (s : State) : Host.Outcome State Fault Refusal :=
  pushCommand (.setDirection slot dir) (setDirectionBody slot dir) s

/-- Step 0 of INVERT_DIRECTION (R117): the no-op path comes before the register-line check. -/
def invertDirectionBody (slot : BitVec 3) (s : State) : Step0 :=
  match s.occupied slot with
  | none => .done true s
  | some id =>
    if s.regBound then .push (s.turn id (Dir.flip (s.slots.get id).dir)) else .raised .cfgRegLines s

/-- INVERT_DIRECTION (R117). -/
def execInvertDirection (slot : BitVec 3) (s : State) : Host.Outcome State Fault Refusal :=
  pushCommand (.invertDirection slot) (invertDirectionBody slot) s

end Sys2Proof.Machine
end

