-- ==== Sys2Proof/Machine/Serializer.lean ====
section
/-! DEFINITION. The register-line commands BIND_REG_LINES (R141) and SERIALIZE (R144). -/

namespace Sys2Proof.Machine

/-- The three lines bound and driven L, and the (BIND, SER/SRCLK/RCLK) event (R141). No edge rises, so the external
register keeps its content (R145). -/
def State.bindLines (s : State) : State :=
  { s with regBound := true, serLvl := .l, clkLvl := .l, latLvl := .l, trace := s.trace ++ [Event.bind] }

/-- Step 0 of BIND_REG_LINES (R141). -/
def bindRegLinesBody (s : State) : Step0 :=
  if s.acqGrant then .done false s.request.bindLines else .raised .setup s.request

/-- BIND_REG_LINES (R141). -/
def execBindRegLines (s : State) : Host.Outcome State Fault Refusal :=
  oneStep .bindRegLines bindRegLinesBody s

/-- Step 0 of SERIALIZE (R144). -/
def serializeBody (s : State) : Step0 :=
  if s.regBound then .push s else .raised .cfgRegLines s

/-- SERIALIZE (R144). -/
def execSerialize (s : State) : Host.Outcome State Fault Refusal :=
  pushCommand .serialize serializeBody s

end Sys2Proof.Machine
end

