-- ==== Sys2Proof/Machine/Servo.lean ====
section
/-! DEFINITION. The servo commands BIND_SERVO_LINE (R203) and SET_ANGLE (R204). -/

namespace Sys2Proof.Machine

/-- Step 0 of BIND_SERVO_LINE (R203). -/
def bindServoLineBody (s : State) : Step0 :=
  if s.acqGrant then .done false { s.request with servoBound := true, servoActive := false }
  else .raised .setup s.request

/-- BIND_SERVO_LINE (R203). -/
def execBindServoLine (s : State) : Host.Outcome State Fault Refusal :=
  oneStep .bindServoLine bindServoLineBody s

/-- The servo driven to angle `a` (R204). -/
def State.driveServo (s : State) (a : Byte) : State :=
  { s with
    servoAngle := a
    chans := s.chans.set .c5 { period := servoPeriod, width := angleToWidth s.cal a, origin := s.time }
    servoActive := true }

/-- Step 0 of SET_ANGLE (R204): the range, then the line. -/
def setAngleBody (a : Byte) (s : State) : Step0 :=
  if angleOutOfRange a then .raised .range s
  else if s.servoBound then .done false (s.driveServo a)
  else .raised .cfgPin s

/-- SET_ANGLE (R204). -/
def execSetAngle (angle : Byte) (s : State) : Host.Outcome State Fault Refusal :=
  oneStep (.setAngle angle) (setAngleBody angle) s

end Sys2Proof.Machine
end

