-- ==== Sys2Proof/Machine/Dispatch.lean ====
section
/-! DEFINITION. One arm for each command: the step of its procedure that the sequencer is at (R100). -/

namespace Sys2Proof.Machine

def exec (i : Instr) (s : State) : Host.Outcome State Fault Refusal :=
  match i with
  | .nop => Sys2Proof.Machine.execNop s
  | .setMotor slot dir flg => Sys2Proof.Machine.execSetMotor slot dir flg s
  | .getMotor slot => Sys2Proof.Machine.execGetMotor slot s
  | .bindRegLines => Sys2Proof.Machine.execBindRegLines s
  | .setDirection slot dir => Sys2Proof.Machine.execSetDirection slot dir s
  | .invertDirection slot => Sys2Proof.Machine.execInvertDirection slot s
  | .serialize => Sys2Proof.Machine.execSerialize s
  | .start slot flg => Sys2Proof.Machine.execStart slot flg s
  | .stop slot => Sys2Proof.Machine.execStop slot s
  | .bindServoLine => Sys2Proof.Machine.execBindServoLine s
  | .setAngle angle => Sys2Proof.Machine.execSetAngle angle s
  | .illegal word => Sys2Proof.Machine.execIllegal word s

end Sys2Proof.Machine
end

