-- ==== Sys2Proof/Machine/Step.lean ====
section
/-! DEFINITION. One clock step of the block (R34, R100), and where its next command comes from (R65, R70). -/

namespace Sys2Proof.Machine

/-- One `clk` step: the tick, then the bus access (R64 to R66), then a reset (R260) or the current step of the running
command (R34, R100): log 3. A command accepted by the bus runs its step 0 in the same clock step (R269, R270; log 2). A
reset step serves the bus as any other, a read at once (R64, R270), and then overrides whatever a write stored (R260;
log 4). -/
def step (s : State) : Host.Outcome State Fault Refusal :=
  match s.busRefusal with
  | some r => .refused r
  | none =>
    if s.inputs.rst then .next s.beginClock.serveBus.applyReset
    else
      match s.beginClock.serveBus.seq with
      | .idle => .next s.beginClock.serveBus
      | .exec c _ => exec (decodeWord c) s.beginClock.serveBus

/-- The command word `w` as the host's next access, a CMD write (R70, R80): the block fetches nothing, a command is
the value of a CMD write. The sequencer is Idle, so that the write is accepted, and the next clock step is no reset. -/
def State.withFetchWord (s : State) (nbits w : Nat) : State :=
  { s with
    seq := .idle
    host := .write 0 4 (BitVec.ofNat 32 (w % 2 ^ nbits)) :: s.host
    clkIn := clearNextRst s.clkIn }

end Sys2Proof.Machine
end

