-- ==== Sys2Proof/Machine/Assembler.lean ====
section
/-! DEFINITION. The assembler syntax (R89) and the pseudo-instructions (R90): one line of text as the host accesses it
stands for. Text is a list of characters. -/

namespace Sys2Proof.Machine.Asm

/-- A line of R89 or R90, its numbers as written. -/
inductive Line where
  | nop
  | setmotor (slot : Nat) (dir : Dir) (bound : Bool)
  | getmotor (slot : Nat)
  | bindreg
  | setdir (slot : Nat) (dir : Dir)
  | invdir (slot : Nat)
  | serialize
  | start (slot : Nat) (full : Bool)
  | stop (slot : Nat)
  | bindservo
  | setangle (deg : Nat)
  | wr (r : Reg) (v : Nat)
  | rd (r : Reg)
  | startfull (slot : Nat)
  | startpwm (slot p w : Nat)
  | isrunning (slot : Nat)
  | getdirbyte
  | wait
  deriving DecidableEq, Repr

/-- A `<slot>` operand: 0..7, any other refused (R89). -/
def slotOperand (n : Nat) : Option (BitVec 3) := if n ≤ 7 then some (BitVec.ofNat 3 n) else none

/-- A `<deg>` operand: 0..255, any other refused (R89). -/
def degOperand (n : Nat) : Option Byte := if n ≤ 255 then some (BitVec.ofNat 8 n) else none

/-- A `<v>` operand: a 32-bit value (R89). -/
def valueOperand (n : Nat) : Option Word := if n < 2 ^ 32 then some (BitVec.ofNat 32 n) else none

/-- A write of register `r` (R89). -/
def writeOf (r : Reg) (v : Word) : Access := .write (BitVec.ofNat 32 r.offset) 4 v

/-- A read of register `r` (R89). -/
def readOf (r : Reg) : Access := .read (BitVec.ofNat 32 r.offset) 4

/-- A CMD write of a command's canonical word (R89). -/
def issue (i : Instr) : Access := writeOf .cmd (encode i)

/-- The registers `wr` takes: CMD, PERIOD, WIDTH (R89). -/
def writable : Reg → Bool
  | .cmd => true
  | .period => true
  | .width => true
  | _ => false

/-- The accesses a line stands for, or none where the assembler refuses it (R89, R90). -/
def Line.assemble : Line → Option (List Access)
  | .nop => some [issue .nop]
  | .setmotor n d b => (slotOperand n).map fun s => [issue (.setMotor s d b)]
  | .getmotor n => (slotOperand n).map fun s => [issue (.getMotor s)]
  | .bindreg => some [issue .bindRegLines]
  | .setdir n d => (slotOperand n).map fun s => [issue (.setDirection s d)]
  | .invdir n => (slotOperand n).map fun s => [issue (.invertDirection s)]
  | .serialize => some [issue .serialize]
  | .start n full => (slotOperand n).map fun s => [issue (.start s full)]
  | .stop n => (slotOperand n).map fun s => [issue (.stop s)]
  | .bindservo => some [issue .bindServoLine]
  | .setangle n => (degOperand n).map fun a => [issue (.setAngle a)]
  | .wr r n => if writable r then (valueOperand n).map fun v => [writeOf r v] else none
  | .rd r => some [readOf r]
  | .startfull n => (slotOperand n).map fun s => [issue (.start s true)]
  | .startpwm n p w => do
    let s ← slotOperand n
    let p ← valueOperand p
    let w ← valueOperand w
    return [writeOf .period p, writeOf .width w, issue (.start s false)]
  | .isrunning n => do
    let s ← slotOperand n
    let id ← SlotId.ofField s
    return [readOf (.slotState id)]
  | .getdirbyte => some [readOf .dirbyte]
  | .wait => some [.wait]

/-- The answer of `isrunning`: bits [3:2] of the SLOTn_STATE word are not 0 (R90, R176). -/
def runningAnswer (w : Word) : Bool := w.extractLsb' 2 2 != 0

/-- A register's name in `rd` and `wr` (R61). -/
def regName : Reg → String
  | .cmd => "CMD"
  | .period => "PERIOD"
  | .width => "WIDTH"
  | .status => "STATUS"
  | .dirbyte => "DIRBYTE"
  | .result => "RESULT"
  | .servoState => "SERVO_STATE"
  | .slotState .s1 => "SLOT1_STATE"
  | .slotState .s2 => "SLOT2_STATE"
  | .slotState .s3 => "SLOT3_STATE"
  | .slotState .s4 => "SLOT4_STATE"
  | .chPeriod .c1 => "CH1_PERIOD"
  | .chWidth .c1 => "CH1_WIDTH"
  | .chPeriod .c2 => "CH2_PERIOD"
  | .chWidth .c2 => "CH2_WIDTH"
  | .chPeriod .c3 => "CH3_PERIOD"
  | .chWidth .c3 => "CH3_WIDTH"
  | .chPeriod .c4 => "CH4_PERIOD"
  | .chWidth .c4 => "CH4_WIDTH"
  | .chPeriod .c5 => "CH5_PERIOD"
  | .chWidth .c5 => "CH5_WIDTH"

/-- Blanks and tabs. -/
def isBlank (c : Char) : Bool := c == ' ' || c == '\t'

/-- The text without blanks at either end. -/
def trim (t : List Char) : List Char :=
  ((t.dropWhile isBlank).reverse.dropWhile isBlank).reverse

/-- The pieces of the text between commas. -/
def commaPieces : List Char → List (List Char)
  | [] => [[]]
  | ',' :: rest => [] :: commaPieces rest
  | c :: rest =>
    match commaPieces rest with
    | [] => [[c]]
    | p :: ps => (c :: p) :: ps

/-- The operands of a line, comma-separated (R89). -/
def operands (t : List Char) : List (List Char) :=
  if (trim t).isEmpty then [] else (commaPieces t).map trim

/-- A decimal digit. -/
def decDigit (c : Char) : Option Nat :=
  if '0'.toNat ≤ c.toNat && c.toNat ≤ '9'.toNat then some (c.toNat - '0'.toNat) else none

/-- A hexadecimal digit. -/
def hexDigit (c : Char) : Option Nat :=
  if 'a'.toNat ≤ c.toNat && c.toNat ≤ 'f'.toNat then some (c.toNat - 'a'.toNat + 10)
  else if 'A'.toNat ≤ c.toNat && c.toNat ≤ 'F'.toNat then some (c.toNat - 'A'.toNat + 10)
  else decDigit c

/-- Digits in a base, most significant first, after the value `acc`. -/
def digits (base : Nat) (digit : Char → Option Nat) : Nat → List Char → Option Nat
  | acc, [] => some acc
  | acc, c :: rest =>
    match digit c with
    | some d => digits base digit (acc * base + d) rest
    | none => none

/-- A decimal integer. -/
def decimal : List Char → Option Nat
  | [] => none
  | c :: rest => digits 10 decDigit 0 (c :: rest)

/-- A decimal or `0x` hexadecimal value (R89). -/
def value : List Char → Option Nat
  | '0' :: 'x' :: c :: rest => digits 16 hexDigit 0 (c :: rest)
  | t => decimal t

/-- `cw` or `ccw` (R89). -/
def direction (t : List Char) : Option Dir :=
  if t == "cw".toList then some .cw else if t == "ccw".toList then some .ccw else none

/-- A register by its name (R61). -/
def register (t : List Char) : Option Reg :=
  Reg.all.find? fun r => t == (regName r).toList

/-- A line without operands, by its name (R89, R90). -/
def parseNullary (op : List Char) : Option Line :=
  if op == "nop".toList then some .nop
  else if op == "bindreg".toList then some .bindreg
  else if op == "serialize".toList then some .serialize
  else if op == "bindservo".toList then some .bindservo
  else if op == "getdirbyte".toList then some .getdirbyte
  else if op == "wait".toList then some .wait
  else none

/-- A line with one operand (R89, R90). -/
def parseUnary (op a : List Char) : Option Line :=
  if op == "getmotor".toList then (decimal a).map .getmotor
  else if op == "invdir".toList then (decimal a).map .invdir
  else if op == "stop".toList then (decimal a).map .stop
  else if op == "setangle".toList then (decimal a).map .setangle
  else if op == "startfull".toList then (decimal a).map .startfull
  else if op == "isrunning".toList then (decimal a).map .isrunning
  else if op == "rd".toList then (register a).map .rd
  else none

/-- A line with two operands (R89). -/
def parseBinary (op a b : List Char) : Option Line :=
  if op == "setmotor".toList then do return .setmotor (← decimal a) (← direction b) false
  else if op == "setdir".toList then do return .setdir (← decimal a) (← direction b)
  else if op == "start".toList then
    if b == "full".toList then (decimal a).map (.start · true)
    else if b == "pwm".toList then (decimal a).map (.start · false)
    else none
  else if op == "wr".toList then do return .wr (← register a) (← value b)
  else none

/-- A line with three operands (R89, R90). -/
def parseTernary (op a b c : List Char) : Option Line :=
  if op == "setmotor".toList then
    if c == "bound".toList then do return .setmotor (← decimal a) (← direction b) true else none
  else if op == "startpwm".toList then do return .startpwm (← decimal a) (← value b) (← value c)
  else none

/-- One line of text: a comment runs from `;` to its end; a blank line is `some none` (R89). -/
def parseLine (t : List Char) : Option (Option Line) :=
  let body := trim (t.takeWhile (· != ';'))
  if body.isEmpty then some none
  else
    let op := body.takeWhile (fun c => !isBlank c)
    match operands (body.dropWhile (fun c => !isBlank c)) with
    | [] => (parseNullary op).map some
    | [a] => (parseUnary op a).map some
    | [a, b] => (parseBinary op a b).map some
    | [a, b, c] => (parseTernary op a b c).map some
    | _ => none

/-- The accesses of one line of text, or none where the assembler refuses it (R89). -/
def assembleLine (t : List Char) : Option (List Access) :=
  match parseLine t with
  | some (some l) => l.assemble
  | some none => some []
  | none => none

end Sys2Proof.Machine.Asm
end

