-- ==== Sys2Proof/Safety.lean ====
section
/-! DEFINITION. What counts as a well-kept block: the invariants of R22, R27, R170, R200, R230 and of the sequencer
(R34), the progress of a push (R142, R145), and the words the statements use. -/

namespace Sys2Proof.Safety

open Sys2Proof.Machine

/-- R22, for one slot record. -/
structure SlotOk (v : Slot) : Prop where
  line_occ : v.line = true → v.occ = true
  run_line : v.run ≠ .idle → v.line = true
  empty_dir : v.occ = false → v.dir = .cw
  empty_run : v.occ = false → v.run = .idle
  empty_line : v.occ = false → v.line = false

/-- What a slot's channel holds while the slot runs: a valid pair and a past origin in PWM (R170, R173), 0 and 0
full-on (R174). -/
structure ChanOk (r : Run) (ch : Channel) (time : Nat) : Prop where
  pwm_valid : r = .pwm → validPwm ch.period ch.width = true
  pwm_origin : r = .pwm → ch.origin ≤ time
  full_on : r = .running → ch.period = 0 ∧ ch.width = 0

/-- What SERVO_OUT is driven with while active: a bound line, the fixed period and the angle's width (R200, R204). -/
structure ServoOk (s : State) : Prop where
  bound : s.servoBound = true
  period : s.chans.c5.period = servoPeriod
  width : s.chans.c5.width = angleToWidth s.cal s.servoAngle
  origin : s.chans.c5.origin ≤ s.time

/-- The clock steps of a command that raises nothing (R269). -/
def stepCount : Instr → Nat
  | .setDirection _ _ => 27
  | .invertDirection _ => 27
  | .serialize => 27
  | .start _ _ => 28
  | .stop _ => 28
  | _ => 1

/-- What step 0 of the running command established for its later steps (R174, R175). -/
def Ready (s : State) : Instr → Prop
  | .start slot flg =>
    ∃ id, s.occupied slot = some id ∧ (s.slots.get id).line = true ∧
      (flg = false → validPwm s.period s.width = true)
  | .stop slot => ∃ id, s.occupied slot = some id ∧ (s.slots.get id).line = true
  | _ => True

/-- A sequencer between two clock steps: Idle, or inside a serializing command, past its step 0 (R34, R101). -/
def SeqOk (s : State) : Prop :=
  match s.seq with
  | .idle => True
  | .exec c k => 1 ≤ k ∧ k < stepCount (decodeWord c) ∧ s.regBound = true ∧ Ready s (decodeWord c)

/-- The invariant of the block. -/
structure Inv (s : State) : Prop where
  slots : ∀ id, SlotOk (s.slots.get id)
  chans : ∀ id, ChanOk (s.slots.get id).run (s.chans.get id.chan) s.time
  dirByte : s.dirByte = encodeDirs s.slots
  err : s.err.toNat ≤ 7
  angle : s.servoAngle.toNat ≤ 180
  cal : s.cal.ok = true
  servo : s.servoActive = true → ServoOk s
  seq : SeqOk s

/-- The push after `m` of its 26 pin writes: the lines stand where write `m` left them, the chain's low bits are the
bits of the direction byte pushed so far, and after the last write the storage register holds the byte (R142, R145). -/
structure PushAt (s : State) (m : Nat) : Prop where
  latch : 1 ≤ m → s.latLvl = if m = 26 then .h else .l
  clock : 2 ≤ m → s.clkLvl = if m = 26 ∨ (m - 2) % 3 = 2 then .h else .l
  data : 3 ≤ m → (m - 2) % 3 ≠ 0 → m < 26 → s.serLvl = bitLvl s.dirByte (7 - (m - 2) / 3)
  chain : s.srChain.toNat % 2 ^ ((m - 1) / 3) = s.dirByte.toNat / 2 ^ (8 - (m - 1) / 3)
  store : m = 26 → s.srStore = s.dirByte

/-- A command in progress has its push where the sequencer's phase says. -/
def PushProgress (s : State) : Prop :=
  match s.seq with
  | .idle => True
  | .exec _ k => PushAt s (k - 1)

/-- No reset in the next `n` clock steps. -/
def NoReset (s : State) (n : Nat) : Prop := ∀ x ∈ s.clkIn.take n, x.rst = false

/-- The access can be expressed on the block's bus (R62). -/
def goodAccess : Access → Bool
  | .read addr width => (badAccess addr width).isNone
  | .write addr width _ => (badAccess addr width).isNone
  | .idle => true
  | .wait => true

/-- Every pending access can be expressed on the block's bus (R62). -/
def GoodHost (s : State) : Prop := ∀ a ∈ s.host, goodAccess a = true

/-- The next host access is a CMD write of `w`, and the block is ready to accept it (R65, R66). -/
def Offered (s : State) (w : Word) (rest : List Access) : Prop :=
  s.seq = .idle ∧ s.host = .write 0 4 w :: rest

/-- The commands that write the servo's state (R205). -/
def isServo : Instr → Bool
  | .bindServoLine => true
  | .setAngle _ => true
  | _ => false

/-- The commands that can change the run status or the channel of slot `id` (R179). -/
def drivesSlot (id : SlotId) : Instr → Bool
  | .setMotor slot _ _ => decide (SlotId.ofField slot = some id)
  | .start slot _ => decide (SlotId.ofField slot = some id)
  | .stop slot => decide (SlotId.ofField slot = some id)
  | _ => false

/-- The commands that write `dirByte` (R27). -/
def turnsSlot : Instr → Bool
  | .setMotor _ _ _ => true
  | .setDirection _ _ => true
  | .invertDirection _ => true
  | _ => false

/-- The commands that acquire a line, and so may assert `acq_req` (R15, R114, R141, R203). -/
def acquires : Instr → Bool
  | .setMotor _ _ flg => flg
  | .bindRegLines => true
  | .bindServoLine => true
  | _ => false

/-- The errors a command can raise, in the order of its checks (R230, R232). -/
def errorsOf : Instr → List Err
  | .nop => []
  | .setMotor _ _ flg => if flg then [.idxOutOfBounds, .setup] else [.idxOutOfBounds]
  | .getMotor _ => [.idxNotFound]
  | .bindRegLines => [.setup]
  | .setDirection _ _ => [.idxNotFound, .cfgRegLines]
  | .invertDirection _ => [.cfgRegLines]
  | .serialize => [.cfgRegLines]
  | .start _ flg =>
    if flg then [.idxNotFound, .cfgRegLines, .cfgPin] else [.idxNotFound, .range, .cfgRegLines, .cfgPin]
  | .stop _ => [.idxNotFound, .cfgRegLines, .cfgPin]
  | .bindServoLine => [.setup]
  | .setAngle _ => [.range, .cfgPin]
  | .illegal _ => [.illegal]

/-- The bits of the word that an opcode reads, the opcode's own among them (R83, R84). -/
def readMask (op : BitVec 4) : Word :=
  match op.toNat with
  | 0x1 => 0x000001FF
  | 0x2 => 0x0000007F
  | 0x4 => 0x000000FF
  | 0x5 => 0x0000007F
  | 0x7 => 0x0000017F
  | 0x8 => 0x0000007F
  | 0xA => 0x00FF000F
  | _ => 0x0000000F

/-- Steps 1 to 26 of a serializing command: the pin writes of the push, one each; without a drive step the last of
them ends the command (R101, R142). -/
def PushSteps (i : Instr) (drives : Bool) : Prop :=
  ∀ (s : State) (c : Word) (j : Nat) (p : Pin) (lvl : Drive),
    s.seq = .exec c (j + 1) → (pushWrites s.dirByte)[j]? = some (p, lvl) →
    (j < 25 ∨ drives = true → exec i s = .next { s.pinWrite p lvl with seq := .exec c (j + 2) }) ∧
    (j = 25 → drives = false →
      exec i s = .next { s.pinWrite p lvl with err := 0, diag := false, seq := .idle })

end Sys2Proof.Safety
end

