-- ==== Sys2Proof/Certificates/Slice0/Obligations.lean ====
section
/-! DEFINITION. The statements for the provers, family by family. A next state written out as `{ s with … }` states
the result and the frame at once: every field not named is unchanged. -/

open Sys2Proof Sys2Proof.Machine Sys2Proof.Safety

/-! ### Encoding -/

/-- R80, R83, R88: the canonical word of a well-formed command decodes to it, as a word and as byte lanes. -/
def Obligations.DecodeEncodeRoundTrip : Prop :=
  ∀ i : Instr, i.wf = true →
    decodeWord (encode i) = i ∧ ∀ rest, decodeBytes (wordLanes (encode i) ++ rest) = .ok (i, rest)

/-- R88 on sixteen words of 95_test_vectors.md, one or more of every opcode, with and without fields that the opcode
ignores. -/
def Obligations.TestVectorWordsDecode : Prop :=
  decodeWord 0x00340000 = .nop ∧ decodeWord 0x000000F1 = .setMotor 7 .ccw false ∧
  decodeWord 0x00000111 = .setMotor 1 .cw true ∧ decodeWord 0x00000022 = .getMotor 2 ∧
  decodeWord 0x000001F3 = .bindRegLines ∧ decodeWord 0x00000094 = .setDirection 1 .ccw ∧
  decodeWord 0x00000015 = .invertDirection 1 ∧ decodeWord 0x000001F6 = .serialize ∧
  decodeWord 0x00000117 = .start 1 true ∧ decodeWord 0x00000027 = .start 2 false ∧
  decodeWord 0x00000018 = .stop 1 ∧ decodeWord 0x00000009 = .bindServoLine ∧
  decodeWord 0x005A01FA = .setAngle 90 ∧ decodeWord 0x00000206 = .illegal 0x00000206 ∧
  decodeWord 0x80000006 = .illegal 0x80000006 ∧ decodeWord 0x000000FB = .illegal 0x000000FB

/-- R88: the decoder on every word, row by row of the opcode map, with the fields of R81. -/
def Obligations.DecoderFollowsOpcodeMap : Prop :=
  ∀ c : Word,
    (c.extractLsb' 9 7 ≠ 0 ∨ c.extractLsb' 24 8 ≠ 0 → decodeWord c = .illegal c) ∧
    (c &&& 0xFF00FE0F = 0x0 → decodeWord c = .nop) ∧
    (c &&& 0xFF00FE0F = 0x1 →
      decodeWord c = .setMotor (c.extractLsb' 4 3) (if c.getLsbD 7 then .ccw else .cw) (c.getLsbD 8)) ∧
    (c &&& 0xFF00FE0F = 0x2 → decodeWord c = .getMotor (c.extractLsb' 4 3)) ∧
    (c &&& 0xFF00FE0F = 0x3 → decodeWord c = .bindRegLines) ∧
    (c &&& 0xFF00FE0F = 0x4 →
      decodeWord c = .setDirection (c.extractLsb' 4 3) (if c.getLsbD 7 then .ccw else .cw)) ∧
    (c &&& 0xFF00FE0F = 0x5 → decodeWord c = .invertDirection (c.extractLsb' 4 3)) ∧
    (c &&& 0xFF00FE0F = 0x6 → decodeWord c = .serialize) ∧
    (c &&& 0xFF00FE0F = 0x7 → decodeWord c = .start (c.extractLsb' 4 3) (c.getLsbD 8)) ∧
    (c &&& 0xFF00FE0F = 0x8 → decodeWord c = .stop (c.extractLsb' 4 3)) ∧
    (c &&& 0xFF00FE0F = 0x9 → decodeWord c = .bindServoLine) ∧
    (c &&& 0xFF00FE0F = 0xA → decodeWord c = .setAngle (c.extractLsb' 16 8)) ∧
    (0xB ≤ (c.extractLsb' 0 4).toNat → decodeWord c = .illegal c)

/-- R84: two words that agree on the bits their opcode reads are one command. -/
def Obligations.UnreadFieldsAreIgnored : Prop :=
  ∀ c d : Word, illegalWord c = false → illegalWord d = false →
    c &&& readMask (opField c) = d &&& readMask (opField c) → decodeWord c = decodeWord d

/-- R89: the assembled word is `OP | SLOT<<4 | DIR<<7 | FLG<<8 | ANGLE<<16`. -/
def Obligations.AssembledWordFields : Prop :=
  ∀ (op : BitVec 4) (slot : BitVec 3) (dir : Dir) (flg : Bool) (angle : Byte),
    cmdWord op slot dir flg angle =
      op.setWidth 32 ||| (slot.setWidth 32 <<< 4) ||| (BitVec.setWidth 32 (BitVec.ofBool dir.bit) <<< 7) |||
        (BitVec.setWidth 32 (BitVec.ofBool flg) <<< 8) ||| (angle.setWidth 32 <<< 16)

/-- R90: the pseudo-instructions stand for their expansions, on every slot operand. That `wait` is one access, which
the bus serves by reading STATUS again until it shows BUSY = 0, is the model's form of it (log 22). -/
def Obligations.PseudoInstructionExpansions : Prop :=
  ∀ (slot : BitVec 3) (id : SlotId) (p w : Word),
    (Asm.Line.startfull slot.toNat).assemble = (Asm.Line.start slot.toNat true).assemble ∧
    (Asm.Line.startfull slot.toNat).assemble = some [.write 0x00 4 (encode (.start slot true))] ∧
    (Asm.Line.startpwm slot.toNat p.toNat w.toNat).assemble =
      some [.write 0x04 4 p, .write 0x08 4 w, .write 0x00 4 (encode (.start slot false))] ∧
    (∀ s : State, (Asm.Line.isrunning id.num.toNat).assemble = some [Asm.readOf (.slotState id)] ∧
      Asm.runningAnswer (readReg s (BitVec.ofNat 32 (Reg.slotState id).offset)) = (s.slots.get id).run.isRunning) ∧
    Asm.Line.getdirbyte.assemble = some [.read 0x10 4] ∧
    Asm.Line.wait.assemble = some [.wait] ∧
    ∀ (s : State) (rest : List Access), s.host = .wait :: rest →
      (s.busy = true → s.serveBus = { s with busRdata := readReg s 0x0C } ∧ (readReg s 0x0C).getLsbD 0 = true) ∧
      (s.busy = false →
        s.serveBus = { s with host := rest, busRdata := readReg s 0x0C } ∧ (readReg s 0x0C).getLsbD 0 = false)

/-! ### One clock step -/

/-- R65, R34, R100, R238, R9, R15: without a reset, an accepted CMD write runs the decoded command's step 0; a command
in progress runs its next step; each around the clock's own changes and the bus access. A tick adds 1 to the time,
no tick leaves it; the grant input takes its level; `acq_req` is 0 but in step 0 of an acquiring command. Acceptance and
step 0 in one clock step is log 2; the order tick, bus, command is log 3; the queue and the schedule are logs 7, 8
and 15; without an access `bus_rdata` keeps the last read's word, log 27: the model's choices. -/
def Obligations.StepRunsDecodedCommand : Prop :=
  ∀ (s : State) (w : Word) (rest : List Access) (c : Word) (k : Nat),
    s.inputs.rst = false →
    (∀ (x : ClkIn) (more : List ClkIn), s.clkIn = x :: more → s.inputs = x) ∧
    s.beginClock = { s with
      time := if s.inputs.tick = true then s.time + 1 else s.time
      acqGrant := s.inputs.grant, acqReq := false, clkIn := s.clkIn.tail, cycle := s.cycle + 1 } ∧
    (s.host = [] → s.beginClock.serveBus = s.beginClock) ∧
    (s.host = .idle :: rest → s.beginClock.serveBus = { s.beginClock with host := rest }) ∧
    (∀ t : State, step s = .next t →
      t.time = (if s.inputs.tick = true then s.time + 1 else s.time) ∧ t.acqGrant = s.inputs.grant ∧
      t.clkIn = s.clkIn.tail ∧ t.cycle = s.cycle + 1 ∧
      (t.acqReq = true → ∃ c', s.beginClock.serveBus.seq = .exec c' 0 ∧ acquires (decodeWord c') = true)) ∧
    (Offered s w rest → step s = exec (decodeWord w) { s.beginClock with host := rest, seq := .exec w 0 }) ∧
    (s.seq = .exec c k → s.busRefusal = none →
      step s = exec (decodeWord c) s.beginClock.serveBus ∧ s.beginClock.serveBus.seq = .exec c k) ∧
    (s.seq = .idle → s.busRefusal = none → s.beginClock.serveBus.seq = .idle →
      step s = .next s.beginClock.serveBus)

/-- What `withFetchWord` places is what the very next step runs: a CMD write of the host (log 18), whose step 0 falls in
that clock step (log 2) after the tick (log 3); these are the model's choices. -/
def Obligations.PlacedWordRunsNext : Prop :=
  ∀ (s : State) (w : Word),
    step (s.withFetchWord 32 w.toNat) =
      exec (decodeWord w)
        { (s.withFetchWord 32 w.toNat).beginClock with host := s.host, seq := .exec w 0 }

/-- R260: a step with `rst` = 1, whatever access the bus serves in it. The model's readings beside R260: the time is 0
after it, a tick of that clock step not counted (R238; logs 4 and 24), `acq_req` is 0 in it, as no command step runs
(R15; log 4), and an access that the bus cannot express is refused in it too (R62; log 4). -/
def Obligations.ResetStepRestoresBlock : Prop :=
  ∀ s : State, s.inputs.rst = true → s.busRefusal = none →
    ∃ t, step s = .next t ∧ t.seq = .idle ∧ t.busy = false ∧
      (∀ id, t.slots.get id = { occ := false, dir := .cw, run := .idle, line := false }) ∧
      (∀ id, (t.chans.get id).period = 0 ∧ (t.chans.get id).width = 0) ∧
      t.dirByte = 0 ∧ t.regBound = false ∧ t.serLvl = .l ∧ t.clkLvl = .l ∧ t.latLvl = .l ∧
      t.servoBound = false ∧ t.servoActive = false ∧ t.servoAngle = 0 ∧ t.period = 0 ∧ t.width = 0 ∧
      t.err = 0 ∧ t.diag = false ∧ t.setupFault = false ∧ t.result = 0 ∧
      t.trace = s.trace ++ [Event.reset] ∧ t.time = 0 ∧ t.acqReq = false ∧
      (∀ p, t.pinLevel p = .z) ∧ (∀ id, t.outLevel id = .z) ∧ t.servoLevel = .z

/-- R61, R260: at power-up and after a step with `rst` = 1, from any state, every address reads 0 and no port is
driven. -/
def Obligations.ResetRegistersReadZero : Prop :=
  ∀ t : State, (t = State.reset ∨ ∃ s : State, s.inputs.rst = true ∧ step s = .next t) →
    (∀ a : Word, readReg t a = 0) ∧ (∀ p, t.pinLevel p = .z) ∧ (∀ id, t.outLevel id = .z) ∧ t.servoLevel = .z

/-- R271, R261: a reset during a push leaves the chain as the edges so far left it, and the storage register alone. The
bus is served in the reset step as in any other: a read gives the value before the reset, a write is held only where
BUSY = 1 (log 4, the model's reading of R64, R66 and R270); with a write the last read's word stays on `bus_rdata`
(log 27, the model's choice). -/
def Obligations.ResetLeavesExternalRegister : Prop :=
  ∀ s t : State, s.inputs.rst = true → step s = .next t →
    t.srChain = s.srChain ∧ t.srStore = s.srStore ∧ (∀ p, t.pinLevel p = .z) ∧ t.cal = s.cal ∧
    (∀ (addr : Word) (rest : List Access), s.host = .read addr 4 :: rest →
      t.host = rest ∧ t.busRdata = readReg s addr) ∧
    (∀ (addr v : Word) (rest : List Access), s.host = .write addr 4 v :: rest →
      t.busRdata = s.busRdata ∧ (s.busy = true → t.host = s.host) ∧ (s.busy = false → t.host = rest))

/-- R62: an access of another width than 4, or at an address that is no multiple of 4, is refused. That it is refused
in a reset step too (log 4), and at once while BUSY = 1, at the head of a queue (log 15), is the model's. -/
def Obligations.MisalignedAccessIsRefused : Prop :=
  ∀ (s : State) (addr v : Word) (width : Nat) (rest : List Access),
    (s.host = .read addr width :: rest ∨ s.host = .write addr width v :: rest) →
    (width ≠ 4 → step s = .refused .accessWidth) ∧
    (width = 4 → addr.toNat % 4 ≠ 0 → step s = .refused .misalignedAccess)

/-- R66: while BUSY = 1 a write is held and changes nothing; when BUSY = 0 it is accepted. That the last read's word
stays on `bus_rdata` meanwhile (log 27), that the write waits at the head of a queue (log 15), and that the bus does the
same in a reset step (log 4), are the model's. -/
def Obligations.WritesStallWhileBusy : Prop :=
  ∀ (s t : State) (addr v : Word) (rest : List Access),
    s.host = .write addr 4 v :: rest → step s = .next t →
    (s.busy = true → s.busReady = false ∧ t.host = s.host ∧ s.serveBus = s ∧
      (s.inputs.rst = false → t.period = s.period ∧ t.width = s.width ∧
        ∀ c k, s.seq = .exec c k → t.seq = .idle ∨ t.seq = .exec c (k + 1))) ∧
    (s.busy = false → s.busReady = true ∧ t.host = rest)

/-- R67: accesses are served in the order the host issues them. That they are a queue, of which a clock step serves at
most one, is the model's choice (log 15). -/
def Obligations.HostAccessesKeepOrder : Prop :=
  ∀ s t : State, step s = .next t → t.host = s.host ∨ t.host = s.host.tail

/-- R64, R270: a read returns the register's value in the very step it is issued, busy or not, in a reset step too
(log 4), and changes nothing else of the state. -/
def Obligations.ReadHasNoSideEffect : Prop :=
  ∀ (s : State) (addr : Word) (rest : List Access),
    s.host = .read addr 4 :: rest →
    s.serveBus = { s with host := rest, busRdata := readReg s addr } ∧ s.busReady = true ∧
    (addr.toNat % 4 = 0 → ∀ r, step s ≠ .refused r) ∧
    (∀ t : State, step s = .next t → t.host = rest ∧ t.busRdata = readReg s addr)

/-- R61, R64: the register map, register by register; every other address reads 0. -/
def Obligations.RegisterMapReads : Prop :=
  ∀ s : State,
    readReg s 0x00 = 0 ∧ readReg s 0x04 = s.period ∧ readReg s 0x08 = s.width ∧
    ((readReg s 0x0C).getLsbD 0 = s.busy ∧ (readReg s 0x0C).extractLsb' 1 3 = 0 ∧
      (readReg s 0x0C).extractLsb' 4 4 = s.err ∧ (readReg s 0x0C).getLsbD 8 = s.diag ∧
      (readReg s 0x0C).getLsbD 9 = s.setupFault ∧ (readReg s 0x0C).getLsbD 10 = s.regBound ∧
      (readReg s 0x0C).getLsbD 11 = s.servoBound ∧ (readReg s 0x0C).extractLsb' 12 20 = 0) ∧
    ((readReg s 0x10).extractLsb' 0 8 = s.dirByte ∧ (readReg s 0x10).extractLsb' 8 24 = 0) ∧
    readReg s 0x14 = s.result ∧
    ((readReg s 0x18).getLsbD 0 = s.servoBound ∧ (readReg s 0x18).getLsbD 1 = s.servoActive ∧
      (readReg s 0x18).extractLsb' 2 6 = 0 ∧ (readReg s 0x18).extractLsb' 8 8 = s.servoAngle ∧
      (readReg s 0x18).extractLsb' 16 16 = 0) ∧
    (∀ id : SlotId, ∀ a : Word, a.toNat = 0x1C + 4 * id.num.toNat →
      (readReg s a).getLsbD 0 = (s.slots.get id).occ ∧ (readReg s a).getLsbD 1 = (s.slots.get id).dir.bit ∧
      (readReg s a).extractLsb' 2 2 = (s.slots.get id).run.code ∧ (readReg s a).getLsbD 4 = (s.slots.get id).line ∧
      (readReg s a).extractLsb' 5 27 = 0) ∧
    (∀ id : SlotId, ∀ a : Word, a.toNat = 0x38 + 8 * id.num.toNat →
      readReg s a = (s.chans.get id.chan).period ∧ readReg s (a + 4) = (s.chans.get id.chan).width) ∧
    readReg s 0x60 = s.chans.c5.period ∧ readReg s 0x64 = s.chans.c5.width ∧
    readReg s 0x1C = 0 ∧
    (∀ a : Word, (0x30 ≤ a.toNat ∧ a.toNat ≤ 0x3F) ∨ 0x68 ≤ a.toNat → readReg s a = 0)

/-- R65: an accepted write. That the last read's word stays on `bus_rdata` is the model's choice (log 27). -/
def Obligations.AcceptedWriteEffect : Prop :=
  ∀ (s : State) (addr v : Word) (rest : List Access),
    s.host = .write addr 4 v :: rest → s.busy = false →
    (addr = 0x00 → s.serveBus = { s with host := rest, seq := .exec v 0 }) ∧
    (addr = 0x04 → s.serveBus = { s with host := rest, period := v }) ∧
    (addr = 0x08 → s.serveBus = { s with host := rest, width := v }) ∧
    (addr ≠ 0x00 → addr ≠ 0x04 → addr ≠ 0x08 → s.serveBus = { s with host := rest })

/-! ### Control commands -/

/-- R103: NOP. -/
def Obligations.NopWritesStatusOnly : Prop :=
  (∀ c : Word, c &&& 0xFF00FE0F = 0x0 → decodeWord c = .nop) ∧
  ∀ (s : State) (c : Word), s.seq = .exec c 0 →
    exec .nop s = .next { s with err := 0, diag := false, seq := .idle }

/-- R104: every reserved encoding ends with ERR = ILLEGAL (7) and no other effect. -/
def Obligations.IllegalReportsSeven : Prop :=
  ∀ (c : Word) (s : State), s.seq = .exec c 0 →
    (c.extractLsb' 9 7 ≠ 0 ∨ c.extractLsb' 24 8 ≠ 0 ∨ 0xB ≤ (c.extractLsb' 0 4).toNat) →
    decodeWord c = .illegal c ∧
      exec (.illegal c) s = .next { s with err := 7, diag := false, seq := .idle }

/-! ### Motor slots -/

/-- R113: the SLOT values 1 to 4, and no other, name a slot. -/
def Obligations.ValidSlotNumbers : Prop :=
  ∀ slot : BitVec 3,
    (1 ≤ slot.toNat ∧ slot.toNat ≤ 4 ↔ ∃ id : SlotId, slot = id.num) ∧
    (∀ id : SlotId, SlotId.ofField slot = some id ↔ slot = id.num) ∧
    (slot = 0 ∨ slot = 5 ∨ slot = 6 ∨ slot = 7 → SlotId.ofField slot = none)

/-- R114: SET_MOTOR. -/
def Obligations.SetMotorInstalls : Prop :=
  (∀ c : Word, c &&& 0xFF00FE0F = 0x1 →
    decodeWord c = .setMotor (c.extractLsb' 4 3) (if c.getLsbD 7 then .ccw else .cw) (c.getLsbD 8)) ∧
  ∀ (s : State) (c : Word) (dir : Dir) (flg : Bool), s.seq = .exec c 0 →
    (∀ (id : SlotId) (bank : Slots), (flg = true → s.acqGrant = true) →
      bank = s.slots.set id { occ := true, dir := dir, run := .idle, line := flg } →
      exec (.setMotor id.num dir flg) s = .next { s with
        slots := bank
        chans := s.chans.set id.chan { s.chans.get id.chan with period := 0, width := 0 }
        dirByte := encodeDirs bank
        acqReq := s.acqReq || flg
        err := 0, diag := false, seq := .idle }) ∧
    (∀ slot : BitVec 3, (slot.toNat = 0 ∨ 5 ≤ slot.toNat) →
      exec (.setMotor slot dir flg) s = .next { s with err := 1, diag := false, seq := .idle }) ∧
    (∀ id : SlotId, flg = true → s.acqGrant = false →
      exec (.setMotor id.num dir flg) s =
        .next { s with acqReq := true, err := 6, diag := false, setupFault := true, seq := .idle })

/-- R115: GET_MOTOR. -/
def Obligations.GetMotorReadsOccupant : Prop :=
  (∀ c : Word, c &&& 0xFF00FE0F = 0x2 → decodeWord c = .getMotor (c.extractLsb' 4 3)) ∧
  ∀ (s : State) (c : Word), s.seq = .exec c 0 →
    (∀ id : SlotId, (s.slots.get id).occ = true → ∃ r : Word,
      exec (.getMotor id.num) s = .next { s with result := r, err := 0, diag := false, seq := .idle } ∧
      r.getLsbD 0 = true ∧ r.getLsbD 1 = (s.slots.get id).dir.bit ∧ r.extractLsb' 2 2 = (s.slots.get id).run.code ∧
      r.getLsbD 4 = (s.slots.get id).line ∧ r.extractLsb' 5 3 = 0 ∧ r.extractLsb' 8 3 = id.num ∧
      r.extractLsb' 11 21 = 0) ∧
    (∀ slot : BitVec 3, (∀ id : SlotId, slot = id.num → (s.slots.get id).occ = false) →
      exec (.getMotor slot) s = .next { s with err := 2, diag := false, seq := .idle })

/-- R116: SET_DIRECTION, step by step. Pin writes read the direction byte again: log 12. -/
def Obligations.SetDirectionTurnsAndPushes : Prop :=
  (∀ c : Word, c &&& 0xFF00FE0F = 0x4 →
    decodeWord c = .setDirection (c.extractLsb' 4 3) (if c.getLsbD 7 then .ccw else .cw)) ∧
  (∀ (s : State) (c : Word) (dir : Dir), s.seq = .exec c 0 →
    (∀ (id : SlotId) (bank : Slots), (s.slots.get id).occ = true → s.regBound = true →
      bank = s.slots.set id { s.slots.get id with dir := dir } →
      exec (.setDirection id.num dir) s =
        .next { s with slots := bank, dirByte := encodeDirs bank, seq := .exec c 1 }) ∧
    (∀ slot : BitVec 3, (∀ id : SlotId, slot = id.num → (s.slots.get id).occ = false) →
      exec (.setDirection slot dir) s = .next { s with err := 2, diag := false, seq := .idle }) ∧
    (∀ id : SlotId, (s.slots.get id).occ = true → s.regBound = false →
      exec (.setDirection id.num dir) s = .next { s with err := 3, diag := false, seq := .idle })) ∧
  ∀ (slot : BitVec 3) (dir : Dir), PushSteps (.setDirection slot dir) false

/-- R117: INVERT_DIRECTION, step by step, the no-op path before the register-line check. Pin writes read the direction
byte again: log 12. -/
def Obligations.InvertDirectionFlipsAndPushes : Prop :=
  (∀ c : Word, c &&& 0xFF00FE0F = 0x5 → decodeWord c = .invertDirection (c.extractLsb' 4 3)) ∧
  (∀ (s : State) (c : Word), s.seq = .exec c 0 →
    (∀ (id : SlotId) (bank : Slots), (s.slots.get id).occ = true → s.regBound = true →
      bank = s.slots.set id
        { s.slots.get id with dir := if (s.slots.get id).dir = .cw then .ccw else .cw } →
      exec (.invertDirection id.num) s =
        .next { s with slots := bank, dirByte := encodeDirs bank, seq := .exec c 1 }) ∧
    (∀ slot : BitVec 3, (∀ id : SlotId, slot = id.num → (s.slots.get id).occ = false) →
      exec (.invertDirection slot) s = .next { s with err := 0, diag := true, seq := .idle }) ∧
    (∀ id : SlotId, (s.slots.get id).occ = true → s.regBound = false →
      exec (.invertDirection id.num) s = .next { s with err := 3, diag := false, seq := .idle })) ∧
  ∀ slot : BitVec 3, PushSteps (.invertDirection slot) false

/-- R118, R177: apart from SET_MOTOR no slot command touches a run status, a line or a channel. -/
def Obligations.DirectionLeavesStatusAlone : Prop :=
  ∀ (i : Instr) (s t : State), exec i s = .next t →
    (i = .serialize ∨ (∃ slot, i = .getMotor slot) ∨ (∃ slot d, i = .setDirection slot d) ∨
      ∃ slot, i = .invertDirection slot) →
    t.chans = s.chans ∧
      ∀ id, (t.slots.get id).run = (s.slots.get id).run ∧ (t.slots.get id).line = (s.slots.get id).line ∧
        (t.slots.get id).occ = (s.slots.get id).occ ∧ t.outLevel id = s.outLevel id

/-- R110, R111: the direction bit table, and the direction byte as the OR of the occupied slots' entries, bit by bit. -/
def Obligations.DirectionByteIsTableOr : Prop :=
  (dirBit .s1 .cw = 4 ∧ dirBit .s1 .ccw = 8 ∧ dirBit .s2 .cw = 2 ∧ dirBit .s2 .ccw = 16 ∧
    dirBit .s3 .cw = 1 ∧ dirBit .s3 .ccw = 64 ∧ dirBit .s4 .cw = 32 ∧ dirBit .s4 .ccw = 128) ∧
  ∀ (b : Slots) (n : Nat), (encodeDirs b).getLsbD n = true ↔
    ∃ id : SlotId, (b.get id).occ = true ∧ (dirBit id (b.get id).dir).getLsbD n = true

/-- R112 (a) to (e): the encoder's properties. -/
def Obligations.EncoderProperties : Prop :=
  (∀ (id id' : SlotId) (d d' : Dir), dirBit id d = dirBit id' d' → id = id' ∧ d = d') ∧
  (∀ (id : SlotId) (d : Dir), ∃ n < 8, dirBit id d = BitVec.ofNat 8 (2 ^ n)) ∧
  (∀ (b : Slots) (id id' : SlotId) (v v' : Slot), id ≠ id' →
    encodeDirs ((b.set id v).set id' v') = encodeDirs ((b.set id' v').set id v)) ∧
  (∀ b b' : Slots, encodeDirs b = encodeDirs b' →
    ∀ id, (b.get id).occ = (b'.get id).occ ∧ ((b.get id).occ = true → (b.get id).dir = (b'.get id).dir)) ∧
  (∀ (b : Slots) (id : SlotId) (v : Slot),
    encodeDirs (b.set id v) &&& ~~~(dirBit id .cw ||| dirBit id .ccw) =
      encodeDirs b &&& ~~~(dirBit id .cw ||| dirBit id .ccw)) ∧
  (∀ b : Slots, (∀ id, (b.get id).occ = false) → encodeDirs b = 0) ∧
  (∀ b : Slots, (∀ id, (b.get id).occ = true) →
    ((List.range 8).filter (fun n => (encodeDirs b).getLsbD n)).length = 4)

/-! ### Serializer -/

/-- R141: BIND_REG_LINES. -/
def Obligations.BindRegLinesAcquires : Prop :=
  (∀ c : Word, c &&& 0xFF00FE0F = 0x3 → decodeWord c = .bindRegLines) ∧
  ∀ (s : State) (c : Word), s.seq = .exec c 0 →
    (s.acqGrant = true → exec .bindRegLines s = .next { s with
      acqReq := true, regBound := true, serLvl := .l, clkLvl := .l, latLvl := .l,
      trace := s.trace ++ [Event.bind], err := 0, diag := false, seq := .idle }) ∧
    (s.acqGrant = false → exec .bindRegLines s =
      .next { s with acqReq := true, err := 6, diag := false, setupFault := true, seq := .idle })

/-- R144: SERIALIZE, step by step. Pin writes read the direction byte again: log 12. -/
def Obligations.SerializePushesStepByStep : Prop :=
  (∀ c : Word, c &&& 0xFF00FE0F = 0x6 → decodeWord c = .serialize) ∧
  (∀ (s : State) (c : Word), s.seq = .exec c 0 →
    (s.regBound = true → exec .serialize s = .next { s with seq := .exec c 1 }) ∧
    (s.regBound = false → exec .serialize s = .next { s with err := 3, diag := false, seq := .idle })) ∧
  PushSteps .serialize false

/-- R150, R143: one push is exactly these 26 pin writes, MSB first. -/
def Obligations.PushIsTwentySixWrites : Prop :=
  ∀ b : Byte, (pushWrites b).length = 26 ∧
    pushWrites b = (.rclk, .l) :: ((List.range 8).reverse.flatMap fun i =>
      [(.srclk, .l), (.ser, if b.getLsbD i then .h else .l), (.srclk, .h)]) ++ [(.rclk, .h)]

/-- R9, R145: a pin write, on unbound lines (no edge) and on bound lines, line by line. -/
def Obligations.PinWriteEffect : Prop :=
  (∀ (s : State) (p : Pin) (lvl : Drive), s.regBound = false →
    s.pinWrite p lvl = { s.setLvl p lvl with trace := s.trace ++ [Event.pin p lvl] }) ∧
  ∀ (s : State) (lvl : Drive), s.regBound = true →
    s.pinWrite .ser lvl = { s with serLvl := lvl, trace := s.trace ++ [Event.pin .ser lvl] } ∧
    s.pinWrite .srclk lvl = { s with
      clkLvl := lvl, trace := s.trace ++ [Event.pin .srclk lvl],
      srChain := if s.clkLvl = .l ∧ lvl = .h then
        (s.srChain <<< 1) ||| (if s.serLvl = .h then 1 else 0) else s.srChain } ∧
    s.pinWrite .rclk lvl = { s with
      latLvl := lvl, trace := s.trace ++ [Event.pin .rclk lvl],
      srStore := if s.latLvl = .l ∧ lvl = .h then s.srChain else s.srStore }

/-- R145: in every clock step the external register reacts to the edges on the pins, and to nothing else. -/
def Obligations.ExternalRegisterReacts : Prop :=
  ∀ s t : State, step s = .next t →
    t.srChain = (if s.pinLevel .srclk = .l ∧ t.pinLevel .srclk = .h then
      (s.srChain.extractLsb' 0 7 ++ BitVec.ofBool (decide (t.pinLevel .ser = .h)) : BitVec (7 + 1)) else s.srChain) ∧
    t.srStore = (if s.pinLevel .rclk = .l ∧ t.pinLevel .rclk = .h then s.srChain else s.srStore) ∧
    ¬((s.pinLevel .srclk = .l ∧ t.pinLevel .srclk = .h) ∧ (s.pinLevel .rclk = .l ∧ t.pinLevel .rclk = .h))

/-- R146, R150: from the first pin write on, 26 clock steps without a reset leave both halves of the external register
at the direction byte, whatever they held, and append the 26 events, whatever the host reads meanwhile. -/
def Obligations.PushLatchesDirectionByte : Prop :=
  ∀ (s : State) (c : Word), s.seq = .exec c 1 → 27 ≤ stepCount (decodeWord c) → s.regBound = true →
    NoReset s 26 → GoodHost s →
    ∃ t : State, Host.Core.run Sys2Proof.core 26 s = .next t ∧
      t.srChain = s.dirByte ∧ t.srStore = s.dirByte ∧ t.dirByte = s.dirByte ∧
      t.trace = s.trace ++ (pushWrites s.dirByte).map (fun e => Event.pin e.1 e.2) ∧
      t.slots = s.slots ∧ t.chans = s.chans ∧ t.regBound = true ∧ t.period = s.period ∧ t.width = s.width ∧
      t.servoBound = s.servoBound ∧ t.servoActive = s.servoActive ∧ t.servoAngle = s.servoAngle ∧
      t.result = s.result ∧ t.setupFault = s.setupFault ∧
      (stepCount (decodeWord c) = 27 → t.seq = .idle ∧ t.err = 0 ∧ t.diag = false) ∧
      (stepCount (decodeWord c) = 28 → t.seq = .exec c 27 ∧ t.err = s.err ∧ t.diag = s.diag)

/-- R147: the outputs are stable until the push's last step. -/
def Obligations.OutputsStableDuringPush : Prop :=
  ∀ (s t : State) (c : Word) (k : Nat), s.seq = .exec c k → 1 ≤ k → k ≠ 26 → step s = .next t →
    t.srStore = s.srStore

/-- R151: while a command is past its step 0 and no reset comes, nothing writes what its later steps read. -/
def Obligations.OperandsHoldWhileBusy : Prop :=
  ∀ (s t : State) (c : Word) (k : Nat), s.seq = .exec c k → 1 ≤ k → s.inputs.rst = false → step s = .next t →
    t.dirByte = s.dirByte ∧ t.period = s.period ∧ t.width = s.width ∧ t.regBound = s.regBound

/-! ### Motor drive -/

/-- R174: START, step by step: the checks in order, the push, the drive step. That a later step reads the direction
byte and the PWM pair again is the model's reading (log 12). -/
def Obligations.StartChecksPushesDrives : Prop :=
  (∀ c : Word, c &&& 0xFF00FE0F = 0x7 → decodeWord c = .start (c.extractLsb' 4 3) (c.getLsbD 8)) ∧
  (∀ (s : State) (c : Word) (flg : Bool), s.seq = .exec c 0 →
    (∀ slot : BitVec 3, (∀ id : SlotId, slot = id.num → (s.slots.get id).occ = false) →
      exec (.start slot flg) s = .next { s with err := 2, diag := false, seq := .idle }) ∧
    (∀ id : SlotId, (s.slots.get id).occ = true →
      (flg = false → ¬(1 ≤ s.period.toNat ∧ s.width.toNat ≤ s.period.toNat) →
        exec (.start id.num flg) s = .next { s with err := 5, diag := false, seq := .idle }) ∧
      ((flg = false → 1 ≤ s.period.toNat ∧ s.width.toNat ≤ s.period.toNat) →
        (s.regBound = false →
          exec (.start id.num flg) s = .next { s with err := 3, diag := false, seq := .idle }) ∧
        (s.regBound = true → (s.slots.get id).line = false →
          exec (.start id.num flg) s = .next { s with err := 4, diag := false, seq := .idle }) ∧
        (s.regBound = true → (s.slots.get id).line = true →
          exec (.start id.num flg) s = .next { s with seq := .exec c 1 })))) ∧
  (∀ (slot : BitVec 3) (flg : Bool), PushSteps (.start slot flg) true) ∧
  ∀ (s : State) (c : Word) (id : SlotId), s.seq = .exec c 27 →
    exec (.start id.num true) s = .next { s with
      slots := s.slots.set id { s.slots.get id with run := .running }
      chans := s.chans.set id.chan { s.chans.get id.chan with period := 0, width := 0 }
      err := 0, diag := false, seq := .idle } ∧
    exec (.start id.num false) s = .next { s with
      slots := s.slots.set id { s.slots.get id with run := .pwm }
      chans := s.chans.set id.chan { period := s.period, width := s.width, origin := s.time }
      err := 0, diag := false, seq := .idle }

/-- R175: STOP, step by step. Pin writes read the direction byte again: log 12. -/
def Obligations.StopChecksPushesDrives : Prop :=
  (∀ c : Word, c &&& 0xFF00FE0F = 0x8 → decodeWord c = .stop (c.extractLsb' 4 3)) ∧
  (∀ (s : State) (c : Word), s.seq = .exec c 0 →
    (∀ slot : BitVec 3, (∀ id : SlotId, slot = id.num → (s.slots.get id).occ = false) →
      exec (.stop slot) s = .next { s with err := 2, diag := false, seq := .idle }) ∧
    (∀ id : SlotId, (s.slots.get id).occ = true →
      (s.regBound = false →
        exec (.stop id.num) s = .next { s with err := 3, diag := false, seq := .idle }) ∧
      (s.regBound = true → (s.slots.get id).line = false →
        exec (.stop id.num) s = .next { s with err := 4, diag := false, seq := .idle }) ∧
      (s.regBound = true → (s.slots.get id).line = true →
        exec (.stop id.num) s = .next { s with seq := .exec c 1 }))) ∧
  (∀ slot : BitVec 3, PushSteps (.stop slot) true) ∧
  ∀ (s : State) (c : Word) (id : SlotId), s.seq = .exec c 27 →
    exec (.stop id.num) s = .next { s with
      slots := s.slots.set id { s.slots.get id with run := .idle }, err := 0, diag := false, seq := .idle }

/-- R174, R178, R269: a START accepted on a ready slot ends after 28 clock steps; after 27 of them the byte is latched
and no motor line has changed, and the 28th drives the line. The model's choices: step 0 falls in the acceptance's own clock
step (log 2), and the origin counts the drive step's own tick (log 3). -/
def Obligations.StartRunsInTwentyEightSteps : Prop :=
  ∀ (s : State) (w : Word) (rest : List Access) (id : SlotId) (flg : Bool),
    Offered s w rest → decodeWord w = .start id.num flg → (s.slots.get id).occ = true →
    (s.slots.get id).line = true → s.regBound = true → (flg = false → validPwm s.period s.width = true) →
    NoReset s 28 → GoodHost s →
    ∃ u t : State, Host.Core.run Sys2Proof.core 27 s = .next u ∧ step u = .next t ∧
      u.busy = true ∧ u.srStore = s.dirByte ∧ u.slots = s.slots ∧ u.chans = s.chans ∧
      t.busy = false ∧ t.err = 0 ∧ t.diag = false ∧ t.srStore = s.dirByte ∧ t.dirByte = s.dirByte ∧
      t.slots = s.slots.set id { s.slots.get id with run := if flg then .running else .pwm } ∧
      t.chans = s.chans.set id.chan
        (if flg then { s.chans.get id.chan with period := 0, width := 0 }
         else { period := s.period, width := s.width, origin := t.time }) ∧
      t.trace = s.trace ++ (pushWrites s.dirByte).map (fun e => Event.pin e.1 e.2)

/-- R116, R269: a SET_DIRECTION accepted on an occupied slot ends after 27 clock steps with the new direction in the
slot, in the direction byte and in the external register. Step 0 falls in the acceptance's own clock step: log 2. -/
def Obligations.SetDirectionRunsInTwentySevenSteps : Prop :=
  ∀ (s : State) (w : Word) (rest : List Access) (id : SlotId) (d : Dir),
    Offered s w rest → decodeWord w = .setDirection id.num d → (s.slots.get id).occ = true → s.regBound = true →
    NoReset s 27 → GoodHost s →
    ∃ t : State, Host.Core.run Sys2Proof.core 27 s = .next t ∧ t.busy = false ∧ t.err = 0 ∧ t.diag = false ∧
      t.slots = s.slots.set id { s.slots.get id with dir := d } ∧ t.dirByte = encodeDirs t.slots ∧
      t.srStore = t.dirByte ∧ t.chans = s.chans ∧
      t.trace = s.trace ++ (pushWrites t.dirByte).map (fun e => Event.pin e.1 e.2)

/-- R178: in the drive step of a START or STOP the external register already holds the direction byte, and keeps it. -/
def Obligations.DirectionLatchedBeforeDrive : Prop :=
  ∀ (s t : State) (c : Word), Inv s → PushProgress s → s.seq = .exec c 27 → s.inputs.rst = false →
    step s = .next t →
    s.srStore = s.dirByte ∧ s.srChain = s.dirByte ∧ s.latLvl = .h ∧
    t.srStore = t.dirByte ∧ t.srChain = t.dirByte ∧ t.latLvl = .h ∧ t.dirByte = s.dirByte ∧ t.seq = .idle

/-- R177: the run status of a slot changes only by SET_MOTOR, START and STOP of that slot, each to its own value. -/
def Obligations.RunStatusTransitions : Prop :=
  ∀ (s t : State) (id : SlotId), s.inputs.rst = false → step s = .next t →
    (t.slots.get id).run ≠ (s.slots.get id).run →
    ∃ c k, s.beginClock.serveBus.seq = .exec c k ∧
      (((t.slots.get id).run = .idle ∧ ∃ d f, decodeWord c = .setMotor id.num d f) ∨
       ((t.slots.get id).run = .running ∧ k = 27 ∧ decodeWord c = .start id.num true) ∨
       ((t.slots.get id).run = .pwm ∧ k = 27 ∧ decodeWord c = .start id.num false) ∨
       ((t.slots.get id).run = .idle ∧ k = 27 ∧ decodeWord c = .stop id.num))

/-- R179: a slot's run status and channel change only through the commands on that slot, channel 5 only through the
servo commands. -/
def Obligations.ChannelsAreIndependent : Prop :=
  ∀ (i : Instr) (s t : State), exec i s = .next t →
    (∀ id, drivesSlot id i = false →
      (t.slots.get id).run = (s.slots.get id).run ∧ t.chans.get id.chan = s.chans.get id.chan) ∧
    (isServo i = false → t.chans.c5 = s.chans.c5)

/-- R171: from its origin on, a PWM channel is high for `w` ticks and low for `p - w` ticks of every period. -/
def Obligations.WaveformPeriods : Prop :=
  ∀ (ch : Channel) (n j : Nat), validPwm ch.period ch.width = true → j < ch.period.toNat →
    wave ch (ch.origin + (n * ch.period.toNat + j)) = (if j < ch.width.toNat then .h else .l) ∧
    (ch.width = 0 → ∀ t, wave ch t = .l) ∧ (ch.width = ch.period → ∀ t, wave ch t = .h)

/-- R35: every output port as a function of the state. -/
def Obligations.OutputPortLevels : Prop :=
  ∀ s : State,
    (∀ p, s.regBound = false → s.pinLevel p = .z) ∧
    (s.regBound = true → s.pinLevel .ser = s.serLvl.level ∧ s.pinLevel .srclk = s.clkLvl.level ∧
      s.pinLevel .rclk = s.latLvl.level) ∧
    (∀ id, (s.slots.get id).line = false → s.outLevel id = .z) ∧
    (∀ id, (s.slots.get id).line = true →
      ((s.slots.get id).run = .idle → s.outLevel id = .l) ∧ ((s.slots.get id).run = .running → s.outLevel id = .h) ∧
      ((s.slots.get id).run = .pwm → s.outLevel id = wave (s.chans.get id.chan) s.time)) ∧
    (s.servoBound = false → s.servoLevel = .z) ∧
    (s.servoBound = true → s.servoActive = false → s.servoLevel = .l) ∧
    (s.servoBound = true → s.servoActive = true → s.servoLevel = wave s.chans.c5 s.time)

/-- R176: running is what SLOTs_STATE[3:2] shows; an empty slot reads as not running. -/
def Obligations.IsRunningReadsRunBits : Prop :=
  ∀ (s : State) (id : SlotId),
    ((s.slots.get id).run.isRunning = true ↔ (s.slots.get id).run = .running ∨ (s.slots.get id).run = .pwm) ∧
    ((s.slots.get id).run.isRunning = true ↔
      (readReg s (BitVec.ofNat 32 (Reg.slotState id).offset)).extractLsb' 2 2 ≠ 0) ∧
    (SlotOk (s.slots.get id) → (s.slots.get id).occ = false → (s.slots.get id).run.isRunning = false)

/-! ### Servo -/

/-- R203: BIND_SERVO_LINE. -/
def Obligations.BindServoLineAcquires : Prop :=
  (∀ c : Word, c &&& 0xFF00FE0F = 0x9 → decodeWord c = .bindServoLine) ∧
  ∀ (s : State) (c : Word), s.seq = .exec c 0 →
    (s.acqGrant = true → exec .bindServoLine s = .next { s with
      acqReq := true, servoBound := true, servoActive := false, err := 0, diag := false, seq := .idle }) ∧
    (s.acqGrant = false → exec .bindServoLine s =
      .next { s with acqReq := true, err := 6, diag := false, setupFault := true, seq := .idle })

/-- R204: SET_ANGLE. -/
def Obligations.SetAngleDrivesServo : Prop :=
  (∀ c : Word, c &&& 0xFF00FE0F = 0xA → decodeWord c = .setAngle (c.extractLsb' 16 8)) ∧
  ∀ (s : State) (c : Word) (a : Byte), s.seq = .exec c 0 →
    (180 < a.toNat → exec (.setAngle a) s = .next { s with err := 5, diag := false, seq := .idle }) ∧
    (a.toNat ≤ 180 → s.servoBound = false →
      exec (.setAngle a) s = .next { s with err := 4, diag := false, seq := .idle }) ∧
    (a.toNat ≤ 180 → s.servoBound = true → exec (.setAngle a) s = .next { s with
      servoAngle := a
      chans := s.chans.set .c5 { period := 20000, width := angleToWidth s.cal a, origin := s.time }
      servoActive := true, err := 0, diag := false, seq := .idle })

/-- R201: the angle's width is the floored interpolation, and nothing is truncated. -/
def Obligations.AngleToWidthFormula : Prop :=
  ∀ (cal : ServoCal) (a : Byte), cal.ok = true → a.toNat ≤ 180 →
    (angleToWidth cal a).toNat = cal.minUs + a.toNat * (cal.maxUs - cal.minUs) / 180 ∧
    a.toNat * (cal.maxUs - cal.minUs) ≤ 3600000

/-- R202: the mapping's end points, midpoint, order and bounds. -/
def Obligations.AngleMappingProperties : Prop :=
  ∀ cal : ServoCal, cal.ok = true →
    (angleToWidth cal 0).toNat = cal.minUs ∧ (angleToWidth cal 180).toNat = cal.maxUs ∧
    (angleToWidth cal 90).toNat = cal.minUs + (cal.maxUs - cal.minUs) / 2 ∧
    (angleToWidth cal 90).toNat = (cal.minUs + cal.maxUs) / 2 ∧
    (∀ a b : Byte, a.toNat ≤ b.toNat → b.toNat ≤ 180 → (angleToWidth cal a).toNat ≤ (angleToWidth cal b).toNat) ∧
    ∀ a : Byte, a.toNat ≤ 180 → cal.minUs ≤ (angleToWidth cal a).toNat ∧ (angleToWidth cal a).toNat ≤ cal.maxUs ∧
      validPwm 20000 (angleToWidth cal a) = true

/-- R205: no servo command touches the motor side, and no motor command the servo's state. -/
def Obligations.ServoIsIndependent : Prop :=
  ∀ (i : Instr) (s t : State), exec i s = .next t →
    (isServo i = true →
      t.slots = s.slots ∧ t.dirByte = s.dirByte ∧ t.regBound = s.regBound ∧ t.serLvl = s.serLvl ∧
      t.clkLvl = s.clkLvl ∧ t.latLvl = s.latLvl ∧ t.srChain = s.srChain ∧ t.srStore = s.srStore ∧
      t.trace = s.trace ∧ ∀ id : SlotId, t.chans.get id.chan = s.chans.get id.chan) ∧
    (isServo i = false →
      t.servoBound = s.servoBound ∧ t.servoActive = s.servoActive ∧ t.servoAngle = s.servoAngle ∧
      t.chans.c5 = s.chans.c5 ∧ t.servoLevel = s.servoLevel)

/-! ### Errors and the whole machine -/

/-- R231, R237: a command that ends with an error has written ERR, DIAG and, on SETUP, SETUP_FAULT, and nothing else
of the block; `acqReq` is a port level. -/
def Obligations.ErrorsArePrecise : Prop :=
  ∀ (i : Instr) (s t : State), exec i s = .next t → t.seq = .idle → t.err ≠ 0 →
    t = { s with
      err := t.err, diag := false, setupFault := s.setupFault || decide (t.err = 6), seq := .idle,
      acqReq := t.acqReq } ∧ s.phase = 0 ∧ t.err.toNat ≤ 7

/-- R100, R230, R234: STATUS is written at a command's end and not before: ERR is then OK, or in step 0 the code of an
error the command can raise; DIAG is 1 only after an INVERT_DIRECTION that ended with OK. On an Idle sequencer `exec` is
step 0 with the command's canonical word (log 14, the model's choice). -/
def Obligations.StatusWrittenAtTheEnd : Prop :=
  ∀ (i : Instr) (s t : State), exec i s = .next t →
    (t.seq = .exec (s.word i) (s.phase + 1) ∧ t.err = s.err ∧ t.diag = s.diag ∧ t.setupFault = s.setupFault) ∨
    (t.seq = .idle ∧ (t.diag = true → t.err = 0 ∧ ∃ slot, i = .invertDirection slot) ∧
      ((t.err = 0 ∧ t.setupFault = s.setupFault) ∨
        (s.phase = 0 ∧ t.diag = false ∧ ∃ e ∈ errorsOf i, t.err = e.code)))

/-- R233: SETUP_FAULT rises with a SETUP error, with nothing else, and falls only by reset. -/
def Obligations.SetupFaultIsSticky : Prop :=
  ∀ s t : State, s.inputs.rst = false → step s = .next t →
    (s.setupFault = true → t.setupFault = true) ∧
    (s.setupFault = false → t.setupFault = true → t.err = 6 ∧ t.acqReq = true) ∧
    (∀ c k, s.beginClock.serveBus.seq = .exec c k → t.seq = .idle → t.err = 6 → t.setupFault = true)

/-- R31, R33, R27, R200: no command writes PERIOD, WIDTH or the parameters; only GET_MOTOR writes RESULT; only the
slot-direction commands write the direction byte. -/
def Obligations.RegistersHaveOneWriter : Prop :=
  ∀ (i : Instr) (s t : State), exec i s = .next t →
    t.period = s.period ∧ t.width = s.width ∧ t.cal = s.cal ∧ t.host = s.host ∧ t.time = s.time ∧
    ((∀ slot, i ≠ .getMotor slot) → t.result = s.result) ∧
    (turnsSlot i = false → t.dirByte = s.dirByte)

/-- R242, R269: a command in progress ends exactly when its step count says, within 28 clock steps, unless a reset
comes first. -/
def Obligations.CommandsEndInTime : Prop :=
  ∀ (s : State) (c : Word) (k : Nat), Inv s → s.seq = .exec c k → NoReset s 28 → GoodHost s →
    k < stepCount (decodeWord c) ∧ stepCount (decodeWord c) ≤ 28 ∧
    ∃ t : State, Host.Core.run Sys2Proof.core (stepCount (decodeWord c) - k) s = .next t ∧ t.busy = false ∧
      ∀ n < stepCount (decodeWord c) - k, ∃ u : State,
        Host.Core.run Sys2Proof.core n s = .next u ∧ u.busy = true

/-- R235: the block never faults, and is refused nothing but an access its bus cannot express. -/
def Obligations.BlockNeverFaults : Prop :=
  ∀ s : State, Inv s →
    (∀ r, step s ≠ .fault r) ∧ (∀ r, step s = .refused r → s.busRefusal = some r) ∧
    (s.busRefusal = none → ∃ t, step s = .next t)

/-- The model's own stop (log 13): a phase that the command does not have. -/
def Obligations.NoSuchPhaseFaults : Prop :=
  ∀ (i : Instr) (s : State),
    stepCount i ≤ s.phase ↔ exec i s = .fault .noSuchPhase

/-- R22, R26, R28 to R34: the reset state meets the invariants, whatever the free values are. -/
def Obligations.ResetMeetsInvariant : Prop := Inv State.reset ∧ PushProgress State.reset

/-- R22, R27, R170, R200, R230: every step keeps the invariant, whatever the host and the inputs do. -/
def Obligations.StepKeepsInvariant : Prop :=
  ∀ s t : State, Inv s → step s = .next t → Inv t

/-- R142, R145: every step keeps the push in step with the sequencer. -/
def Obligations.StepKeepsPushProgress : Prop :=
  ∀ s t : State, Inv s → PushProgress s → step s = .next t → PushProgress t
end

