-- ==== Sys2Proof/Laws/State.lean ====
section
/-! SUPPORT. For each update of the state, what each field is after it: true by unfolding the update once, here. -/

namespace Sys2Proof.Machine

/-! `State.finish` -/

@[simp] theorem State.finish_slots (s : State) (d : Bool) : (s.finish d).slots = s.slots := rfl
@[simp] theorem State.finish_chans (s : State) (d : Bool) : (s.finish d).chans = s.chans := rfl
@[simp] theorem State.finish_dirByte (s : State) (d : Bool) : (s.finish d).dirByte = s.dirByte := rfl
@[simp] theorem State.finish_regBound (s : State) (d : Bool) : (s.finish d).regBound = s.regBound := rfl
@[simp] theorem State.finish_serLvl (s : State) (d : Bool) : (s.finish d).serLvl = s.serLvl := rfl
@[simp] theorem State.finish_clkLvl (s : State) (d : Bool) : (s.finish d).clkLvl = s.clkLvl := rfl
@[simp] theorem State.finish_latLvl (s : State) (d : Bool) : (s.finish d).latLvl = s.latLvl := rfl
@[simp] theorem State.finish_servoBound (s : State) (d : Bool) : (s.finish d).servoBound = s.servoBound := rfl
@[simp] theorem State.finish_servoActive (s : State) (d : Bool) : (s.finish d).servoActive = s.servoActive := rfl
@[simp] theorem State.finish_servoAngle (s : State) (d : Bool) : (s.finish d).servoAngle = s.servoAngle := rfl
@[simp] theorem State.finish_period (s : State) (d : Bool) : (s.finish d).period = s.period := rfl
@[simp] theorem State.finish_width (s : State) (d : Bool) : (s.finish d).width = s.width := rfl
@[simp] theorem State.finish_err (s : State) (d : Bool) : (s.finish d).err = 0 := rfl
@[simp] theorem State.finish_diag (s : State) (d : Bool) : (s.finish d).diag = d := rfl
@[simp] theorem State.finish_setupFault (s : State) (d : Bool) : (s.finish d).setupFault = s.setupFault := rfl
@[simp] theorem State.finish_result (s : State) (d : Bool) : (s.finish d).result = s.result := rfl
@[simp] theorem State.finish_seq (s : State) (d : Bool) : (s.finish d).seq = .idle := rfl
@[simp] theorem State.finish_srChain (s : State) (d : Bool) : (s.finish d).srChain = s.srChain := rfl
@[simp] theorem State.finish_srStore (s : State) (d : Bool) : (s.finish d).srStore = s.srStore := rfl
@[simp] theorem State.finish_time (s : State) (d : Bool) : (s.finish d).time = s.time := rfl
@[simp] theorem State.finish_trace (s : State) (d : Bool) : (s.finish d).trace = s.trace := rfl
@[simp] theorem State.finish_cal (s : State) (d : Bool) : (s.finish d).cal = s.cal := rfl
@[simp] theorem State.finish_acqGrant (s : State) (d : Bool) : (s.finish d).acqGrant = s.acqGrant := rfl
@[simp] theorem State.finish_acqReq (s : State) (d : Bool) : (s.finish d).acqReq = s.acqReq := rfl
@[simp] theorem State.finish_busRdata (s : State) (d : Bool) : (s.finish d).busRdata = s.busRdata := rfl
@[simp] theorem State.finish_host (s : State) (d : Bool) : (s.finish d).host = s.host := rfl
@[simp] theorem State.finish_clkIn (s : State) (d : Bool) : (s.finish d).clkIn = s.clkIn := rfl
@[simp] theorem State.finish_cycle (s : State) (d : Bool) : (s.finish d).cycle = s.cycle := rfl

/-! `State.raise` -/

@[simp] theorem State.raise_slots (s : State) (e : Err) : (s.raise e).slots = s.slots := rfl
@[simp] theorem State.raise_chans (s : State) (e : Err) : (s.raise e).chans = s.chans := rfl
@[simp] theorem State.raise_dirByte (s : State) (e : Err) : (s.raise e).dirByte = s.dirByte := rfl
@[simp] theorem State.raise_regBound (s : State) (e : Err) : (s.raise e).regBound = s.regBound := rfl
@[simp] theorem State.raise_serLvl (s : State) (e : Err) : (s.raise e).serLvl = s.serLvl := rfl
@[simp] theorem State.raise_clkLvl (s : State) (e : Err) : (s.raise e).clkLvl = s.clkLvl := rfl
@[simp] theorem State.raise_latLvl (s : State) (e : Err) : (s.raise e).latLvl = s.latLvl := rfl
@[simp] theorem State.raise_servoBound (s : State) (e : Err) : (s.raise e).servoBound = s.servoBound := rfl
@[simp] theorem State.raise_servoActive (s : State) (e : Err) : (s.raise e).servoActive = s.servoActive := rfl
@[simp] theorem State.raise_servoAngle (s : State) (e : Err) : (s.raise e).servoAngle = s.servoAngle := rfl
@[simp] theorem State.raise_period (s : State) (e : Err) : (s.raise e).period = s.period := rfl
@[simp] theorem State.raise_width (s : State) (e : Err) : (s.raise e).width = s.width := rfl
@[simp] theorem State.raise_err (s : State) (e : Err) : (s.raise e).err = e.code := rfl
@[simp] theorem State.raise_diag (s : State) (e : Err) : (s.raise e).diag = false := rfl
@[simp] theorem State.raise_setupFault (s : State) (e : Err) : (s.raise e).setupFault = (s.setupFault || decide (e = .setup)) := rfl
@[simp] theorem State.raise_result (s : State) (e : Err) : (s.raise e).result = s.result := rfl
@[simp] theorem State.raise_seq (s : State) (e : Err) : (s.raise e).seq = .idle := rfl
@[simp] theorem State.raise_srChain (s : State) (e : Err) : (s.raise e).srChain = s.srChain := rfl
@[simp] theorem State.raise_srStore (s : State) (e : Err) : (s.raise e).srStore = s.srStore := rfl
@[simp] theorem State.raise_time (s : State) (e : Err) : (s.raise e).time = s.time := rfl
@[simp] theorem State.raise_trace (s : State) (e : Err) : (s.raise e).trace = s.trace := rfl
@[simp] theorem State.raise_cal (s : State) (e : Err) : (s.raise e).cal = s.cal := rfl
@[simp] theorem State.raise_acqGrant (s : State) (e : Err) : (s.raise e).acqGrant = s.acqGrant := rfl
@[simp] theorem State.raise_acqReq (s : State) (e : Err) : (s.raise e).acqReq = s.acqReq := rfl
@[simp] theorem State.raise_busRdata (s : State) (e : Err) : (s.raise e).busRdata = s.busRdata := rfl
@[simp] theorem State.raise_host (s : State) (e : Err) : (s.raise e).host = s.host := rfl
@[simp] theorem State.raise_clkIn (s : State) (e : Err) : (s.raise e).clkIn = s.clkIn := rfl
@[simp] theorem State.raise_cycle (s : State) (e : Err) : (s.raise e).cycle = s.cycle := rfl

/-! `State.request` -/

@[simp] theorem State.request_slots (s : State) : s.request.slots = s.slots := rfl
@[simp] theorem State.request_chans (s : State) : s.request.chans = s.chans := rfl
@[simp] theorem State.request_dirByte (s : State) : s.request.dirByte = s.dirByte := rfl
@[simp] theorem State.request_regBound (s : State) : s.request.regBound = s.regBound := rfl
@[simp] theorem State.request_serLvl (s : State) : s.request.serLvl = s.serLvl := rfl
@[simp] theorem State.request_clkLvl (s : State) : s.request.clkLvl = s.clkLvl := rfl
@[simp] theorem State.request_latLvl (s : State) : s.request.latLvl = s.latLvl := rfl
@[simp] theorem State.request_servoBound (s : State) : s.request.servoBound = s.servoBound := rfl
@[simp] theorem State.request_servoActive (s : State) : s.request.servoActive = s.servoActive := rfl
@[simp] theorem State.request_servoAngle (s : State) : s.request.servoAngle = s.servoAngle := rfl
@[simp] theorem State.request_period (s : State) : s.request.period = s.period := rfl
@[simp] theorem State.request_width (s : State) : s.request.width = s.width := rfl
@[simp] theorem State.request_err (s : State) : s.request.err = s.err := rfl
@[simp] theorem State.request_diag (s : State) : s.request.diag = s.diag := rfl
@[simp] theorem State.request_setupFault (s : State) : s.request.setupFault = s.setupFault := rfl
@[simp] theorem State.request_result (s : State) : s.request.result = s.result := rfl
@[simp] theorem State.request_seq (s : State) : s.request.seq = s.seq := rfl
@[simp] theorem State.request_srChain (s : State) : s.request.srChain = s.srChain := rfl
@[simp] theorem State.request_srStore (s : State) : s.request.srStore = s.srStore := rfl
@[simp] theorem State.request_time (s : State) : s.request.time = s.time := rfl
@[simp] theorem State.request_trace (s : State) : s.request.trace = s.trace := rfl
@[simp] theorem State.request_cal (s : State) : s.request.cal = s.cal := rfl
@[simp] theorem State.request_acqGrant (s : State) : s.request.acqGrant = s.acqGrant := rfl
@[simp] theorem State.request_acqReq (s : State) : s.request.acqReq = true := rfl
@[simp] theorem State.request_busRdata (s : State) : s.request.busRdata = s.busRdata := rfl
@[simp] theorem State.request_host (s : State) : s.request.host = s.host := rfl
@[simp] theorem State.request_clkIn (s : State) : s.request.clkIn = s.clkIn := rfl
@[simp] theorem State.request_cycle (s : State) : s.request.cycle = s.cycle := rfl

/-! `State.advance` -/

@[simp] theorem State.advance_slots (s : State) (i : Instr) : (s.advance i).slots = s.slots := rfl
@[simp] theorem State.advance_chans (s : State) (i : Instr) : (s.advance i).chans = s.chans := rfl
@[simp] theorem State.advance_dirByte (s : State) (i : Instr) : (s.advance i).dirByte = s.dirByte := rfl
@[simp] theorem State.advance_regBound (s : State) (i : Instr) : (s.advance i).regBound = s.regBound := rfl
@[simp] theorem State.advance_serLvl (s : State) (i : Instr) : (s.advance i).serLvl = s.serLvl := rfl
@[simp] theorem State.advance_clkLvl (s : State) (i : Instr) : (s.advance i).clkLvl = s.clkLvl := rfl
@[simp] theorem State.advance_latLvl (s : State) (i : Instr) : (s.advance i).latLvl = s.latLvl := rfl
@[simp] theorem State.advance_servoBound (s : State) (i : Instr) : (s.advance i).servoBound = s.servoBound := rfl
@[simp] theorem State.advance_servoActive (s : State) (i : Instr) : (s.advance i).servoActive = s.servoActive := rfl
@[simp] theorem State.advance_servoAngle (s : State) (i : Instr) : (s.advance i).servoAngle = s.servoAngle := rfl
@[simp] theorem State.advance_period (s : State) (i : Instr) : (s.advance i).period = s.period := rfl
@[simp] theorem State.advance_width (s : State) (i : Instr) : (s.advance i).width = s.width := rfl
@[simp] theorem State.advance_err (s : State) (i : Instr) : (s.advance i).err = s.err := rfl
@[simp] theorem State.advance_diag (s : State) (i : Instr) : (s.advance i).diag = s.diag := rfl
@[simp] theorem State.advance_setupFault (s : State) (i : Instr) : (s.advance i).setupFault = s.setupFault := rfl
@[simp] theorem State.advance_result (s : State) (i : Instr) : (s.advance i).result = s.result := rfl
@[simp] theorem State.advance_seq (s : State) (i : Instr) : (s.advance i).seq = .exec (s.word i) (s.phase + 1) := rfl
@[simp] theorem State.advance_srChain (s : State) (i : Instr) : (s.advance i).srChain = s.srChain := rfl
@[simp] theorem State.advance_srStore (s : State) (i : Instr) : (s.advance i).srStore = s.srStore := rfl
@[simp] theorem State.advance_time (s : State) (i : Instr) : (s.advance i).time = s.time := rfl
@[simp] theorem State.advance_trace (s : State) (i : Instr) : (s.advance i).trace = s.trace := rfl
@[simp] theorem State.advance_cal (s : State) (i : Instr) : (s.advance i).cal = s.cal := rfl
@[simp] theorem State.advance_acqGrant (s : State) (i : Instr) : (s.advance i).acqGrant = s.acqGrant := rfl
@[simp] theorem State.advance_acqReq (s : State) (i : Instr) : (s.advance i).acqReq = s.acqReq := rfl
@[simp] theorem State.advance_busRdata (s : State) (i : Instr) : (s.advance i).busRdata = s.busRdata := rfl
@[simp] theorem State.advance_host (s : State) (i : Instr) : (s.advance i).host = s.host := rfl
@[simp] theorem State.advance_clkIn (s : State) (i : Instr) : (s.advance i).clkIn = s.clkIn := rfl
@[simp] theorem State.advance_cycle (s : State) (i : Instr) : (s.advance i).cycle = s.cycle := rfl

/-! `State.setSlotDir` -/

@[simp] theorem State.setSlotDir_slots (s : State) (id : SlotId) (v : Slot) : (s.setSlotDir id v).slots = s.slots.set id v := rfl
@[simp] theorem State.setSlotDir_chans (s : State) (id : SlotId) (v : Slot) : (s.setSlotDir id v).chans = s.chans := rfl
@[simp] theorem State.setSlotDir_dirByte (s : State) (id : SlotId) (v : Slot) : (s.setSlotDir id v).dirByte = encodeDirs (s.slots.set id v) := rfl
@[simp] theorem State.setSlotDir_regBound (s : State) (id : SlotId) (v : Slot) : (s.setSlotDir id v).regBound = s.regBound := rfl
@[simp] theorem State.setSlotDir_serLvl (s : State) (id : SlotId) (v : Slot) : (s.setSlotDir id v).serLvl = s.serLvl := rfl
@[simp] theorem State.setSlotDir_clkLvl (s : State) (id : SlotId) (v : Slot) : (s.setSlotDir id v).clkLvl = s.clkLvl := rfl
@[simp] theorem State.setSlotDir_latLvl (s : State) (id : SlotId) (v : Slot) : (s.setSlotDir id v).latLvl = s.latLvl := rfl
@[simp] theorem State.setSlotDir_servoBound (s : State) (id : SlotId) (v : Slot) : (s.setSlotDir id v).servoBound = s.servoBound := rfl
@[simp] theorem State.setSlotDir_servoActive (s : State) (id : SlotId) (v : Slot) : (s.setSlotDir id v).servoActive = s.servoActive := rfl
@[simp] theorem State.setSlotDir_servoAngle (s : State) (id : SlotId) (v : Slot) : (s.setSlotDir id v).servoAngle = s.servoAngle := rfl
@[simp] theorem State.setSlotDir_period (s : State) (id : SlotId) (v : Slot) : (s.setSlotDir id v).period = s.period := rfl
@[simp] theorem State.setSlotDir_width (s : State) (id : SlotId) (v : Slot) : (s.setSlotDir id v).width = s.width := rfl
@[simp] theorem State.setSlotDir_err (s : State) (id : SlotId) (v : Slot) : (s.setSlotDir id v).err = s.err := rfl
@[simp] theorem State.setSlotDir_diag (s : State) (id : SlotId) (v : Slot) : (s.setSlotDir id v).diag = s.diag := rfl
@[simp] theorem State.setSlotDir_setupFault (s : State) (id : SlotId) (v : Slot) : (s.setSlotDir id v).setupFault = s.setupFault := rfl
@[simp] theorem State.setSlotDir_result (s : State) (id : SlotId) (v : Slot) : (s.setSlotDir id v).result = s.result := rfl
@[simp] theorem State.setSlotDir_seq (s : State) (id : SlotId) (v : Slot) : (s.setSlotDir id v).seq = s.seq := rfl
@[simp] theorem State.setSlotDir_srChain (s : State) (id : SlotId) (v : Slot) : (s.setSlotDir id v).srChain = s.srChain := rfl
@[simp] theorem State.setSlotDir_srStore (s : State) (id : SlotId) (v : Slot) : (s.setSlotDir id v).srStore = s.srStore := rfl
@[simp] theorem State.setSlotDir_time (s : State) (id : SlotId) (v : Slot) : (s.setSlotDir id v).time = s.time := rfl
@[simp] theorem State.setSlotDir_trace (s : State) (id : SlotId) (v : Slot) : (s.setSlotDir id v).trace = s.trace := rfl
@[simp] theorem State.setSlotDir_cal (s : State) (id : SlotId) (v : Slot) : (s.setSlotDir id v).cal = s.cal := rfl
@[simp] theorem State.setSlotDir_acqGrant (s : State) (id : SlotId) (v : Slot) : (s.setSlotDir id v).acqGrant = s.acqGrant := rfl
@[simp] theorem State.setSlotDir_acqReq (s : State) (id : SlotId) (v : Slot) : (s.setSlotDir id v).acqReq = s.acqReq := rfl
@[simp] theorem State.setSlotDir_busRdata (s : State) (id : SlotId) (v : Slot) : (s.setSlotDir id v).busRdata = s.busRdata := rfl
@[simp] theorem State.setSlotDir_host (s : State) (id : SlotId) (v : Slot) : (s.setSlotDir id v).host = s.host := rfl
@[simp] theorem State.setSlotDir_clkIn (s : State) (id : SlotId) (v : Slot) : (s.setSlotDir id v).clkIn = s.clkIn := rfl
@[simp] theorem State.setSlotDir_cycle (s : State) (id : SlotId) (v : Slot) : (s.setSlotDir id v).cycle = s.cycle := rfl

/-! `State.turn` -/

@[simp] theorem State.turn_slots (s : State) (id : SlotId) (d : Dir) : (s.turn id d).slots = s.slots.set id { s.slots.get id with dir := d } := rfl
@[simp] theorem State.turn_chans (s : State) (id : SlotId) (d : Dir) : (s.turn id d).chans = s.chans := rfl
@[simp] theorem State.turn_dirByte (s : State) (id : SlotId) (d : Dir) : (s.turn id d).dirByte = encodeDirs (s.slots.set id { s.slots.get id with dir := d }) := rfl
@[simp] theorem State.turn_regBound (s : State) (id : SlotId) (d : Dir) : (s.turn id d).regBound = s.regBound := rfl
@[simp] theorem State.turn_serLvl (s : State) (id : SlotId) (d : Dir) : (s.turn id d).serLvl = s.serLvl := rfl
@[simp] theorem State.turn_clkLvl (s : State) (id : SlotId) (d : Dir) : (s.turn id d).clkLvl = s.clkLvl := rfl
@[simp] theorem State.turn_latLvl (s : State) (id : SlotId) (d : Dir) : (s.turn id d).latLvl = s.latLvl := rfl
@[simp] theorem State.turn_servoBound (s : State) (id : SlotId) (d : Dir) : (s.turn id d).servoBound = s.servoBound := rfl
@[simp] theorem State.turn_servoActive (s : State) (id : SlotId) (d : Dir) : (s.turn id d).servoActive = s.servoActive := rfl
@[simp] theorem State.turn_servoAngle (s : State) (id : SlotId) (d : Dir) : (s.turn id d).servoAngle = s.servoAngle := rfl
@[simp] theorem State.turn_period (s : State) (id : SlotId) (d : Dir) : (s.turn id d).period = s.period := rfl
@[simp] theorem State.turn_width (s : State) (id : SlotId) (d : Dir) : (s.turn id d).width = s.width := rfl
@[simp] theorem State.turn_err (s : State) (id : SlotId) (d : Dir) : (s.turn id d).err = s.err := rfl
@[simp] theorem State.turn_diag (s : State) (id : SlotId) (d : Dir) : (s.turn id d).diag = s.diag := rfl
@[simp] theorem State.turn_setupFault (s : State) (id : SlotId) (d : Dir) : (s.turn id d).setupFault = s.setupFault := rfl
@[simp] theorem State.turn_result (s : State) (id : SlotId) (d : Dir) : (s.turn id d).result = s.result := rfl
@[simp] theorem State.turn_seq (s : State) (id : SlotId) (d : Dir) : (s.turn id d).seq = s.seq := rfl
@[simp] theorem State.turn_srChain (s : State) (id : SlotId) (d : Dir) : (s.turn id d).srChain = s.srChain := rfl
@[simp] theorem State.turn_srStore (s : State) (id : SlotId) (d : Dir) : (s.turn id d).srStore = s.srStore := rfl
@[simp] theorem State.turn_time (s : State) (id : SlotId) (d : Dir) : (s.turn id d).time = s.time := rfl
@[simp] theorem State.turn_trace (s : State) (id : SlotId) (d : Dir) : (s.turn id d).trace = s.trace := rfl
@[simp] theorem State.turn_cal (s : State) (id : SlotId) (d : Dir) : (s.turn id d).cal = s.cal := rfl
@[simp] theorem State.turn_acqGrant (s : State) (id : SlotId) (d : Dir) : (s.turn id d).acqGrant = s.acqGrant := rfl
@[simp] theorem State.turn_acqReq (s : State) (id : SlotId) (d : Dir) : (s.turn id d).acqReq = s.acqReq := rfl
@[simp] theorem State.turn_busRdata (s : State) (id : SlotId) (d : Dir) : (s.turn id d).busRdata = s.busRdata := rfl
@[simp] theorem State.turn_host (s : State) (id : SlotId) (d : Dir) : (s.turn id d).host = s.host := rfl
@[simp] theorem State.turn_clkIn (s : State) (id : SlotId) (d : Dir) : (s.turn id d).clkIn = s.clkIn := rfl
@[simp] theorem State.turn_cycle (s : State) (id : SlotId) (d : Dir) : (s.turn id d).cycle = s.cycle := rfl

/-! `State.setRun` -/

@[simp] theorem State.setRun_slots (s : State) (id : SlotId) (r : Run) : (s.setRun id r).slots = s.slots.set id { s.slots.get id with run := r } := rfl
@[simp] theorem State.setRun_chans (s : State) (id : SlotId) (r : Run) : (s.setRun id r).chans = s.chans := rfl
@[simp] theorem State.setRun_dirByte (s : State) (id : SlotId) (r : Run) : (s.setRun id r).dirByte = s.dirByte := rfl
@[simp] theorem State.setRun_regBound (s : State) (id : SlotId) (r : Run) : (s.setRun id r).regBound = s.regBound := rfl
@[simp] theorem State.setRun_serLvl (s : State) (id : SlotId) (r : Run) : (s.setRun id r).serLvl = s.serLvl := rfl
@[simp] theorem State.setRun_clkLvl (s : State) (id : SlotId) (r : Run) : (s.setRun id r).clkLvl = s.clkLvl := rfl
@[simp] theorem State.setRun_latLvl (s : State) (id : SlotId) (r : Run) : (s.setRun id r).latLvl = s.latLvl := rfl
@[simp] theorem State.setRun_servoBound (s : State) (id : SlotId) (r : Run) : (s.setRun id r).servoBound = s.servoBound := rfl
@[simp] theorem State.setRun_servoActive (s : State) (id : SlotId) (r : Run) : (s.setRun id r).servoActive = s.servoActive := rfl
@[simp] theorem State.setRun_servoAngle (s : State) (id : SlotId) (r : Run) : (s.setRun id r).servoAngle = s.servoAngle := rfl
@[simp] theorem State.setRun_period (s : State) (id : SlotId) (r : Run) : (s.setRun id r).period = s.period := rfl
@[simp] theorem State.setRun_width (s : State) (id : SlotId) (r : Run) : (s.setRun id r).width = s.width := rfl
@[simp] theorem State.setRun_err (s : State) (id : SlotId) (r : Run) : (s.setRun id r).err = s.err := rfl
@[simp] theorem State.setRun_diag (s : State) (id : SlotId) (r : Run) : (s.setRun id r).diag = s.diag := rfl
@[simp] theorem State.setRun_setupFault (s : State) (id : SlotId) (r : Run) : (s.setRun id r).setupFault = s.setupFault := rfl
@[simp] theorem State.setRun_result (s : State) (id : SlotId) (r : Run) : (s.setRun id r).result = s.result := rfl
@[simp] theorem State.setRun_seq (s : State) (id : SlotId) (r : Run) : (s.setRun id r).seq = s.seq := rfl
@[simp] theorem State.setRun_srChain (s : State) (id : SlotId) (r : Run) : (s.setRun id r).srChain = s.srChain := rfl
@[simp] theorem State.setRun_srStore (s : State) (id : SlotId) (r : Run) : (s.setRun id r).srStore = s.srStore := rfl
@[simp] theorem State.setRun_time (s : State) (id : SlotId) (r : Run) : (s.setRun id r).time = s.time := rfl
@[simp] theorem State.setRun_trace (s : State) (id : SlotId) (r : Run) : (s.setRun id r).trace = s.trace := rfl
@[simp] theorem State.setRun_cal (s : State) (id : SlotId) (r : Run) : (s.setRun id r).cal = s.cal := rfl
@[simp] theorem State.setRun_acqGrant (s : State) (id : SlotId) (r : Run) : (s.setRun id r).acqGrant = s.acqGrant := rfl
@[simp] theorem State.setRun_acqReq (s : State) (id : SlotId) (r : Run) : (s.setRun id r).acqReq = s.acqReq := rfl
@[simp] theorem State.setRun_busRdata (s : State) (id : SlotId) (r : Run) : (s.setRun id r).busRdata = s.busRdata := rfl
@[simp] theorem State.setRun_host (s : State) (id : SlotId) (r : Run) : (s.setRun id r).host = s.host := rfl
@[simp] theorem State.setRun_clkIn (s : State) (id : SlotId) (r : Run) : (s.setRun id r).clkIn = s.clkIn := rfl
@[simp] theorem State.setRun_cycle (s : State) (id : SlotId) (r : Run) : (s.setRun id r).cycle = s.cycle := rfl

/-! `State.install` -/

@[simp] theorem State.install_slots (s : State) (id : SlotId) (d : Dir) (f : Bool) : (s.install id d f).slots = s.slots.set id { occ := true, dir := d, run := .idle, line := f } := rfl
@[simp] theorem State.install_chans (s : State) (id : SlotId) (d : Dir) (f : Bool) : (s.install id d f).chans = s.chans.set id.chan { s.chans.get id.chan with period := 0, width := 0 } := rfl
@[simp] theorem State.install_dirByte (s : State) (id : SlotId) (d : Dir) (f : Bool) : (s.install id d f).dirByte = encodeDirs (s.slots.set id { occ := true, dir := d, run := .idle, line := f }) := rfl
@[simp] theorem State.install_regBound (s : State) (id : SlotId) (d : Dir) (f : Bool) : (s.install id d f).regBound = s.regBound := rfl
@[simp] theorem State.install_serLvl (s : State) (id : SlotId) (d : Dir) (f : Bool) : (s.install id d f).serLvl = s.serLvl := rfl
@[simp] theorem State.install_clkLvl (s : State) (id : SlotId) (d : Dir) (f : Bool) : (s.install id d f).clkLvl = s.clkLvl := rfl
@[simp] theorem State.install_latLvl (s : State) (id : SlotId) (d : Dir) (f : Bool) : (s.install id d f).latLvl = s.latLvl := rfl
@[simp] theorem State.install_servoBound (s : State) (id : SlotId) (d : Dir) (f : Bool) : (s.install id d f).servoBound = s.servoBound := rfl
@[simp] theorem State.install_servoActive (s : State) (id : SlotId) (d : Dir) (f : Bool) : (s.install id d f).servoActive = s.servoActive := rfl
@[simp] theorem State.install_servoAngle (s : State) (id : SlotId) (d : Dir) (f : Bool) : (s.install id d f).servoAngle = s.servoAngle := rfl
@[simp] theorem State.install_period (s : State) (id : SlotId) (d : Dir) (f : Bool) : (s.install id d f).period = s.period := rfl
@[simp] theorem State.install_width (s : State) (id : SlotId) (d : Dir) (f : Bool) : (s.install id d f).width = s.width := rfl
@[simp] theorem State.install_err (s : State) (id : SlotId) (d : Dir) (f : Bool) : (s.install id d f).err = s.err := rfl
@[simp] theorem State.install_diag (s : State) (id : SlotId) (d : Dir) (f : Bool) : (s.install id d f).diag = s.diag := rfl
@[simp] theorem State.install_setupFault (s : State) (id : SlotId) (d : Dir) (f : Bool) : (s.install id d f).setupFault = s.setupFault := rfl
@[simp] theorem State.install_result (s : State) (id : SlotId) (d : Dir) (f : Bool) : (s.install id d f).result = s.result := rfl
@[simp] theorem State.install_seq (s : State) (id : SlotId) (d : Dir) (f : Bool) : (s.install id d f).seq = s.seq := rfl
@[simp] theorem State.install_srChain (s : State) (id : SlotId) (d : Dir) (f : Bool) : (s.install id d f).srChain = s.srChain := rfl
@[simp] theorem State.install_srStore (s : State) (id : SlotId) (d : Dir) (f : Bool) : (s.install id d f).srStore = s.srStore := rfl
@[simp] theorem State.install_time (s : State) (id : SlotId) (d : Dir) (f : Bool) : (s.install id d f).time = s.time := rfl
@[simp] theorem State.install_trace (s : State) (id : SlotId) (d : Dir) (f : Bool) : (s.install id d f).trace = s.trace := rfl
@[simp] theorem State.install_cal (s : State) (id : SlotId) (d : Dir) (f : Bool) : (s.install id d f).cal = s.cal := rfl
@[simp] theorem State.install_acqGrant (s : State) (id : SlotId) (d : Dir) (f : Bool) : (s.install id d f).acqGrant = s.acqGrant := rfl
@[simp] theorem State.install_acqReq (s : State) (id : SlotId) (d : Dir) (f : Bool) : (s.install id d f).acqReq = s.acqReq := rfl
@[simp] theorem State.install_busRdata (s : State) (id : SlotId) (d : Dir) (f : Bool) : (s.install id d f).busRdata = s.busRdata := rfl
@[simp] theorem State.install_host (s : State) (id : SlotId) (d : Dir) (f : Bool) : (s.install id d f).host = s.host := rfl
@[simp] theorem State.install_clkIn (s : State) (id : SlotId) (d : Dir) (f : Bool) : (s.install id d f).clkIn = s.clkIn := rfl
@[simp] theorem State.install_cycle (s : State) (id : SlotId) (d : Dir) (f : Bool) : (s.install id d f).cycle = s.cycle := rfl

/-! `State.bindLines` -/

@[simp] theorem State.bindLines_slots (s : State) : s.bindLines.slots = s.slots := rfl
@[simp] theorem State.bindLines_chans (s : State) : s.bindLines.chans = s.chans := rfl
@[simp] theorem State.bindLines_dirByte (s : State) : s.bindLines.dirByte = s.dirByte := rfl
@[simp] theorem State.bindLines_regBound (s : State) : s.bindLines.regBound = true := rfl
@[simp] theorem State.bindLines_serLvl (s : State) : s.bindLines.serLvl = .l := rfl
@[simp] theorem State.bindLines_clkLvl (s : State) : s.bindLines.clkLvl = .l := rfl
@[simp] theorem State.bindLines_latLvl (s : State) : s.bindLines.latLvl = .l := rfl
@[simp] theorem State.bindLines_servoBound (s : State) : s.bindLines.servoBound = s.servoBound := rfl
@[simp] theorem State.bindLines_servoActive (s : State) : s.bindLines.servoActive = s.servoActive := rfl
@[simp] theorem State.bindLines_servoAngle (s : State) : s.bindLines.servoAngle = s.servoAngle := rfl
@[simp] theorem State.bindLines_period (s : State) : s.bindLines.period = s.period := rfl
@[simp] theorem State.bindLines_width (s : State) : s.bindLines.width = s.width := rfl
@[simp] theorem State.bindLines_err (s : State) : s.bindLines.err = s.err := rfl
@[simp] theorem State.bindLines_diag (s : State) : s.bindLines.diag = s.diag := rfl
@[simp] theorem State.bindLines_setupFault (s : State) : s.bindLines.setupFault = s.setupFault := rfl
@[simp] theorem State.bindLines_result (s : State) : s.bindLines.result = s.result := rfl
@[simp] theorem State.bindLines_seq (s : State) : s.bindLines.seq = s.seq := rfl
@[simp] theorem State.bindLines_srChain (s : State) : s.bindLines.srChain = s.srChain := rfl
@[simp] theorem State.bindLines_srStore (s : State) : s.bindLines.srStore = s.srStore := rfl
@[simp] theorem State.bindLines_time (s : State) : s.bindLines.time = s.time := rfl
@[simp] theorem State.bindLines_trace (s : State) : s.bindLines.trace = s.trace ++ [Event.bind] := rfl
@[simp] theorem State.bindLines_cal (s : State) : s.bindLines.cal = s.cal := rfl
@[simp] theorem State.bindLines_acqGrant (s : State) : s.bindLines.acqGrant = s.acqGrant := rfl
@[simp] theorem State.bindLines_acqReq (s : State) : s.bindLines.acqReq = s.acqReq := rfl
@[simp] theorem State.bindLines_busRdata (s : State) : s.bindLines.busRdata = s.busRdata := rfl
@[simp] theorem State.bindLines_host (s : State) : s.bindLines.host = s.host := rfl
@[simp] theorem State.bindLines_clkIn (s : State) : s.bindLines.clkIn = s.clkIn := rfl
@[simp] theorem State.bindLines_cycle (s : State) : s.bindLines.cycle = s.cycle := rfl

/-! `State.driveServo` -/

@[simp] theorem State.driveServo_slots (s : State) (a : Byte) : (s.driveServo a).slots = s.slots := rfl
@[simp] theorem State.driveServo_chans (s : State) (a : Byte) : (s.driveServo a).chans = s.chans.set .c5 { period := servoPeriod, width := angleToWidth s.cal a, origin := s.time } := rfl
@[simp] theorem State.driveServo_dirByte (s : State) (a : Byte) : (s.driveServo a).dirByte = s.dirByte := rfl
@[simp] theorem State.driveServo_regBound (s : State) (a : Byte) : (s.driveServo a).regBound = s.regBound := rfl
@[simp] theorem State.driveServo_serLvl (s : State) (a : Byte) : (s.driveServo a).serLvl = s.serLvl := rfl
@[simp] theorem State.driveServo_clkLvl (s : State) (a : Byte) : (s.driveServo a).clkLvl = s.clkLvl := rfl
@[simp] theorem State.driveServo_latLvl (s : State) (a : Byte) : (s.driveServo a).latLvl = s.latLvl := rfl
@[simp] theorem State.driveServo_servoBound (s : State) (a : Byte) : (s.driveServo a).servoBound = s.servoBound := rfl
@[simp] theorem State.driveServo_servoActive (s : State) (a : Byte) : (s.driveServo a).servoActive = true := rfl
@[simp] theorem State.driveServo_servoAngle (s : State) (a : Byte) : (s.driveServo a).servoAngle = a := rfl
@[simp] theorem State.driveServo_period (s : State) (a : Byte) : (s.driveServo a).period = s.period := rfl
@[simp] theorem State.driveServo_width (s : State) (a : Byte) : (s.driveServo a).width = s.width := rfl
@[simp] theorem State.driveServo_err (s : State) (a : Byte) : (s.driveServo a).err = s.err := rfl
@[simp] theorem State.driveServo_diag (s : State) (a : Byte) : (s.driveServo a).diag = s.diag := rfl
@[simp] theorem State.driveServo_setupFault (s : State) (a : Byte) : (s.driveServo a).setupFault = s.setupFault := rfl
@[simp] theorem State.driveServo_result (s : State) (a : Byte) : (s.driveServo a).result = s.result := rfl
@[simp] theorem State.driveServo_seq (s : State) (a : Byte) : (s.driveServo a).seq = s.seq := rfl
@[simp] theorem State.driveServo_srChain (s : State) (a : Byte) : (s.driveServo a).srChain = s.srChain := rfl
@[simp] theorem State.driveServo_srStore (s : State) (a : Byte) : (s.driveServo a).srStore = s.srStore := rfl
@[simp] theorem State.driveServo_time (s : State) (a : Byte) : (s.driveServo a).time = s.time := rfl
@[simp] theorem State.driveServo_trace (s : State) (a : Byte) : (s.driveServo a).trace = s.trace := rfl
@[simp] theorem State.driveServo_cal (s : State) (a : Byte) : (s.driveServo a).cal = s.cal := rfl
@[simp] theorem State.driveServo_acqGrant (s : State) (a : Byte) : (s.driveServo a).acqGrant = s.acqGrant := rfl
@[simp] theorem State.driveServo_acqReq (s : State) (a : Byte) : (s.driveServo a).acqReq = s.acqReq := rfl
@[simp] theorem State.driveServo_busRdata (s : State) (a : Byte) : (s.driveServo a).busRdata = s.busRdata := rfl
@[simp] theorem State.driveServo_host (s : State) (a : Byte) : (s.driveServo a).host = s.host := rfl
@[simp] theorem State.driveServo_clkIn (s : State) (a : Byte) : (s.driveServo a).clkIn = s.clkIn := rfl
@[simp] theorem State.driveServo_cycle (s : State) (a : Byte) : (s.driveServo a).cycle = s.cycle := rfl

/-! `State.beginClock` -/

@[simp] theorem State.beginClock_slots (s : State) : s.beginClock.slots = s.slots := rfl
@[simp] theorem State.beginClock_chans (s : State) : s.beginClock.chans = s.chans := rfl
@[simp] theorem State.beginClock_dirByte (s : State) : s.beginClock.dirByte = s.dirByte := rfl
@[simp] theorem State.beginClock_regBound (s : State) : s.beginClock.regBound = s.regBound := rfl
@[simp] theorem State.beginClock_serLvl (s : State) : s.beginClock.serLvl = s.serLvl := rfl
@[simp] theorem State.beginClock_clkLvl (s : State) : s.beginClock.clkLvl = s.clkLvl := rfl
@[simp] theorem State.beginClock_latLvl (s : State) : s.beginClock.latLvl = s.latLvl := rfl
@[simp] theorem State.beginClock_servoBound (s : State) : s.beginClock.servoBound = s.servoBound := rfl
@[simp] theorem State.beginClock_servoActive (s : State) : s.beginClock.servoActive = s.servoActive := rfl
@[simp] theorem State.beginClock_servoAngle (s : State) : s.beginClock.servoAngle = s.servoAngle := rfl
@[simp] theorem State.beginClock_period (s : State) : s.beginClock.period = s.period := rfl
@[simp] theorem State.beginClock_width (s : State) : s.beginClock.width = s.width := rfl
@[simp] theorem State.beginClock_err (s : State) : s.beginClock.err = s.err := rfl
@[simp] theorem State.beginClock_diag (s : State) : s.beginClock.diag = s.diag := rfl
@[simp] theorem State.beginClock_setupFault (s : State) : s.beginClock.setupFault = s.setupFault := rfl
@[simp] theorem State.beginClock_result (s : State) : s.beginClock.result = s.result := rfl
@[simp] theorem State.beginClock_seq (s : State) : s.beginClock.seq = s.seq := rfl
@[simp] theorem State.beginClock_srChain (s : State) : s.beginClock.srChain = s.srChain := rfl
@[simp] theorem State.beginClock_srStore (s : State) : s.beginClock.srStore = s.srStore := rfl
@[simp] theorem State.beginClock_time (s : State) : s.beginClock.time = s.time + (if s.inputs.tick then 1 else 0) := rfl
@[simp] theorem State.beginClock_trace (s : State) : s.beginClock.trace = s.trace := rfl
@[simp] theorem State.beginClock_cal (s : State) : s.beginClock.cal = s.cal := rfl
@[simp] theorem State.beginClock_acqGrant (s : State) : s.beginClock.acqGrant = s.inputs.grant := rfl
@[simp] theorem State.beginClock_acqReq (s : State) : s.beginClock.acqReq = false := rfl
@[simp] theorem State.beginClock_busRdata (s : State) : s.beginClock.busRdata = s.busRdata := rfl
@[simp] theorem State.beginClock_host (s : State) : s.beginClock.host = s.host := rfl
@[simp] theorem State.beginClock_clkIn (s : State) : s.beginClock.clkIn = s.clkIn.tail := rfl
@[simp] theorem State.beginClock_cycle (s : State) : s.beginClock.cycle = s.cycle + 1 := rfl

/-! `State.applyReset` -/

@[simp] theorem State.applyReset_dirByte (s : State) : s.applyReset.dirByte = 0 := rfl
@[simp] theorem State.applyReset_regBound (s : State) : s.applyReset.regBound = false := rfl
@[simp] theorem State.applyReset_serLvl (s : State) : s.applyReset.serLvl = .l := rfl
@[simp] theorem State.applyReset_clkLvl (s : State) : s.applyReset.clkLvl = .l := rfl
@[simp] theorem State.applyReset_latLvl (s : State) : s.applyReset.latLvl = .l := rfl
@[simp] theorem State.applyReset_servoBound (s : State) : s.applyReset.servoBound = false := rfl
@[simp] theorem State.applyReset_servoActive (s : State) : s.applyReset.servoActive = false := rfl
@[simp] theorem State.applyReset_servoAngle (s : State) : s.applyReset.servoAngle = 0 := rfl
@[simp] theorem State.applyReset_period (s : State) : s.applyReset.period = 0 := rfl
@[simp] theorem State.applyReset_width (s : State) : s.applyReset.width = 0 := rfl
@[simp] theorem State.applyReset_err (s : State) : s.applyReset.err = 0 := rfl
@[simp] theorem State.applyReset_diag (s : State) : s.applyReset.diag = false := rfl
@[simp] theorem State.applyReset_setupFault (s : State) : s.applyReset.setupFault = false := rfl
@[simp] theorem State.applyReset_result (s : State) : s.applyReset.result = 0 := rfl
@[simp] theorem State.applyReset_seq (s : State) : s.applyReset.seq = .idle := rfl
@[simp] theorem State.applyReset_srChain (s : State) : s.applyReset.srChain = s.srChain := rfl
@[simp] theorem State.applyReset_srStore (s : State) : s.applyReset.srStore = s.srStore := rfl
@[simp] theorem State.applyReset_time (s : State) : s.applyReset.time = 0 := rfl
@[simp] theorem State.applyReset_trace (s : State) : s.applyReset.trace = s.trace ++ [Event.reset] := rfl
@[simp] theorem State.applyReset_cal (s : State) : s.applyReset.cal = s.cal := rfl
@[simp] theorem State.applyReset_acqGrant (s : State) : s.applyReset.acqGrant = s.acqGrant := rfl
@[simp] theorem State.applyReset_acqReq (s : State) : s.applyReset.acqReq = s.acqReq := rfl
@[simp] theorem State.applyReset_busRdata (s : State) : s.applyReset.busRdata = s.busRdata := rfl
@[simp] theorem State.applyReset_host (s : State) : s.applyReset.host = s.host := rfl
@[simp] theorem State.applyReset_clkIn (s : State) : s.applyReset.clkIn = s.clkIn := rfl
@[simp] theorem State.applyReset_cycle (s : State) : s.applyReset.cycle = s.cycle := rfl

@[simp] theorem State.applyReset_slot (s : State) (id : SlotId) : s.applyReset.slots.get id = Slot.empty := by
  cases id <;> rfl

@[simp] theorem State.applyReset_chan_period (s : State) (n : ChanId) : (s.applyReset.chans.get n).period = 0 := by
  cases n <;> rfl

@[simp] theorem State.applyReset_chan_width (s : State) (n : ChanId) : (s.applyReset.chans.get n).width = 0 := by
  cases n <;> rfl

end Sys2Proof.Machine
end

