-- ==== Sys2Proof/Laws/Ops.lean ====
section
/-! SUPPORT. One lemma for each shared operation that says everything it can do: slot and channel records, pin writes,
the push, the step partition, the bus. -/

namespace Sys2Proof.Machine

/-! ### Slot and channel records -/

@[simp] theorem Slots.get_set_same (b : Slots) (i : SlotId) (v : Slot) : (b.set i v).get i = v := by
  cases i <;> rfl

theorem Slots.get_set_ne (b : Slots) {i j : SlotId} (v : Slot) (h : j ≠ i) : (b.set i v).get j = b.get j := by
  cases i <;> cases j <;> first | rfl | exact absurd rfl h

theorem Slots.get_set (b : Slots) (i j : SlotId) (v : Slot) :
    (b.set i v).get j = if j = i then v else b.get j := by
  split
  · next h => subst h; exact Slots.get_set_same b j v
  · next h => exact Slots.get_set_ne b v h

@[simp] theorem Channels.get_set_same (b : Channels) (i : ChanId) (v : Channel) : (b.set i v).get i = v := by
  cases i <;> rfl

theorem Channels.get_set_ne (b : Channels) {i j : ChanId} (v : Channel) (h : j ≠ i) :
    (b.set i v).get j = b.get j := by
  cases i <;> cases j <;> first | rfl | exact absurd rfl h

theorem Channels.get_set (b : Channels) (i j : ChanId) (v : Channel) :
    (b.set i v).get j = if j = i then v else b.get j := by
  split
  · next h => subst h; exact Channels.get_set_same b j v
  · next h => exact Channels.get_set_ne b v h

theorem SlotId.chan_inj {i j : SlotId} : i.chan = j.chan ↔ i = j := by
  cases i <;> cases j <;> decide

@[simp] theorem SlotId.chan_ne_c5 (i : SlotId) : i.chan ≠ .c5 := by
  cases i <;> decide

@[simp] theorem SlotId.c5_ne_chan (i : SlotId) : ChanId.c5 ≠ i.chan := by
  cases i <;> decide

@[simp] theorem Channels.c5_set_chan (b : Channels) (i : SlotId) (v : Channel) : (b.set i.chan v).c5 = b.c5 := by
  cases i <;> rfl

@[simp] theorem Channels.c5_set_c5 (b : Channels) (v : Channel) : (b.set .c5 v).c5 = v := rfl

@[simp] theorem Channels.get_set_c5 (b : Channels) (i : SlotId) (v : Channel) :
    (b.set .c5 v).get i.chan = b.get i.chan := by
  cases i <;> rfl

/-- A SLOT field names slot `id` exactly when it is its number (R113). -/
theorem SlotId.ofField_eq_some {slot : BitVec 3} {id : SlotId} :
    SlotId.ofField slot = some id ↔ slot = id.num := by
  revert slot; cases id <;> decide

@[simp] theorem SlotId.ofField_num (id : SlotId) : SlotId.ofField id.num = some id := by
  cases id <;> rfl

/-- The occupancy check of a SLOT field (R113, R116). -/
theorem State.occupied_eq_some {s : State} {slot : BitVec 3} {id : SlotId} :
    s.occupied slot = some id ↔ slot = id.num ∧ (s.slots.get id).occ = true := by
  unfold State.occupied
  constructor
  · intro h
    split at h
    · next j hj =>
      split at h
      · next ho =>
        obtain rfl : j = id := Option.some.inj h
        exact ⟨SlotId.ofField_eq_some.1 hj, ho⟩
      · exact absurd h (by simp)
    · exact absurd h (by simp)
  · rintro ⟨rfl, ho⟩
    simp [ho]

theorem State.occupied_eq_none {s : State} {slot : BitVec 3} :
    s.occupied slot = none ↔ ∀ id : SlotId, slot = id.num → (s.slots.get id).occ = false := by
  constructor
  · intro h id hid
    cases ho : (s.slots.get id).occ with
    | false => rfl
    | true => rw [State.occupied_eq_some.2 ⟨hid, ho⟩] at h; cases h
  · intro h
    cases ho : s.occupied slot with
    | none => rfl
    | some id =>
      have := State.occupied_eq_some.1 ho
      rw [h id this.1] at this
      exact absurd this.2 (by decide)

/-! ### Setting a record leaves the rest of the encoding alone -/

/-- A slot's contribution depends on its occupancy and direction only (R111). -/
theorem slotBits_congr (id : SlotId) {v w : Slot} (ho : v.occ = w.occ) (hd : v.dir = w.dir) :
    slotBits id v = slotBits id w := by
  unfold slotBits; rw [ho, hd]

/-- A record with the same occupancy and direction encodes the same (R111). -/
theorem encodeDirs_set_same (b : Slots) (id : SlotId) (v : Slot)
    (ho : v.occ = (b.get id).occ) (hd : v.dir = (b.get id).dir) : encodeDirs (b.set id v) = encodeDirs b := by
  cases id <;> simp only [encodeDirs, Slots.set] <;> rw [slotBits_congr _ ho hd] <;> rfl

/-! ### Output ports -/

/-- SERVO_OUT depends on the servo state and the time only (R35). -/
theorem State.servoLevel_congr {s t : State} (hb : t.servoBound = s.servoBound) (ha : t.servoActive = s.servoActive)
    (hc : t.chans.c5 = s.chans.c5) (ht : t.time = s.time) : t.servoLevel = s.servoLevel := by
  unfold State.servoLevel; rw [hb, ha, hc, ht]

/-- OUTn depends on the slot's run status and line, its channel and the time only (R35). -/
theorem State.outLevel_congr {s t : State} {id : SlotId} (hr : (t.slots.get id).run = (s.slots.get id).run)
    (hl : (t.slots.get id).line = (s.slots.get id).line) (hc : t.chans.get id.chan = s.chans.get id.chan)
    (ht : t.time = s.time) : t.outLevel id = s.outLevel id := by
  unfold State.outLevel; rw [hr, hl, hc, ht]

/-! ### Pin writes and the push -/

/-- What a pin write leaves alone (R9). -/
theorem State.pinWrite_frame (s : State) (p : Pin) (lvl : Drive) :
    s.pinWrite p lvl = { s with
      serLvl := (s.pinWrite p lvl).serLvl, clkLvl := (s.pinWrite p lvl).clkLvl, latLvl := (s.pinWrite p lvl).latLvl,
      srChain := (s.pinWrite p lvl).srChain, srStore := (s.pinWrite p lvl).srStore,
      trace := s.trace ++ [Event.pin p lvl] } := by
  cases p <;> rfl

theorem pushWrites_length (b : Byte) : (pushWrites b).length = 26 := rfl

/-- Every one of the 26 numbers names a pin write. -/
theorem pushWrites_some (b : Byte) {j : Nat} (h : j < 26) : ∃ p lvl, (pushWrites b)[j]? = some (p, lvl) :=
  ⟨_, _, List.getElem?_eq_getElem (by rw [pushWrites_length]; exact h)⟩

/-- A push write is the pin write its number names. -/
theorem State.pushWrite_eq {s : State} {j : Nat} {p : Pin} {lvl : Drive}
    (h : (pushWrites s.dirByte)[j]? = some (p, lvl)) : s.pushWrite j = s.pinWrite p lvl := by
  simp only [State.pushWrite, h]

/-- What a push write leaves alone. -/
theorem State.pushWrite_frame (s : State) (j : Nat) :
    s.pushWrite j = { s with
      serLvl := (s.pushWrite j).serLvl, clkLvl := (s.pushWrite j).clkLvl, latLvl := (s.pushWrite j).latLvl,
      srChain := (s.pushWrite j).srChain, srStore := (s.pushWrite j).srStore,
      trace := (s.pushWrite j).trace } := by
  unfold State.pushWrite
  split
  · exact State.pinWrite_frame s _ _
  · rfl

/-! ### The step partition -/

/-- The phase and the word are functions of the sequencer (R34). -/
theorem State.phase_congr {s t : State} (h : t.seq = s.seq) : t.phase = s.phase := by
  unfold State.phase; rw [h]

theorem State.word_congr {s t : State} (i : Instr) (h : t.seq = s.seq) : t.word i = s.word i := by
  unfold State.word; rw [h]

/-- A one-step command (R101). -/
theorem oneStep_next {i : Instr} {body : State → Step0} {s t : State} :
    oneStep i body s = .next t ↔ s.phase = 0 ∧ t = (body s).close i := by
  unfold oneStep
  split
  · next h => simp [h, eq_comm]
  · next h => simp [h]

/-- A serializing command without a drive step (R101). -/
theorem pushCommand_next {i : Instr} {body : State → Step0} {s t : State} :
    pushCommand i body s = .next t ↔
      (s.phase = 0 ∧ t = (body s).close i) ∨
      (∃ j, s.phase = j + 1 ∧ j < 25 ∧ t = (s.pushWrite j).advance i) ∨
      (s.phase = 26 ∧ t = (s.pushWrite 25).finish false) := by
  unfold pushCommand
  split
  · next h => simp [h, eq_comm]
  · next j h =>
    rw [h]
    obtain hj | rfl | hj : j < 25 ∨ j = 25 ∨ 25 < j := by omega
    · rw [if_pos hj]
      constructor
      · intro h'; cases h'; exact .inr (.inl ⟨j, rfl, hj, rfl⟩)
      · rintro (⟨h1, -⟩ | ⟨j', h1, -, rfl⟩ | ⟨h1, -⟩)
        · omega
        · obtain rfl : j = j' := by omega
          rfl
        · omega
    · simp [eq_comm]
    · rw [if_neg (by omega), if_neg (by omega)]
      constructor
      · intro h'; cases h'
      · rintro (⟨h1, -⟩ | ⟨j', h1, h2, -⟩ | ⟨h1, -⟩) <;> omega

/-- A serializing command with a drive step (R101). -/
theorem pushThenDrive_next {i : Instr} {body : State → Step0} {drive : State → State} {s t : State} :
    pushThenDrive i body drive s = .next t ↔
      (s.phase = 0 ∧ t = (body s).close i) ∨
      (∃ j, s.phase = j + 1 ∧ j < 26 ∧ t = (s.pushWrite j).advance i) ∨
      (s.phase = 27 ∧ t = (drive s).finish false) := by
  unfold pushThenDrive
  split
  · next h => simp [h, eq_comm]
  · next j h =>
    rw [h]
    obtain hj | rfl | hj : j < 26 ∨ j = 26 ∨ 26 < j := by omega
    · rw [if_pos hj]
      constructor
      · intro h'; cases h'; exact .inr (.inl ⟨j, rfl, hj, rfl⟩)
      · rintro (⟨h1, -⟩ | ⟨j', h1, -, rfl⟩ | ⟨h1, -⟩)
        · omega
        · obtain rfl : j = j' := by omega
          rfl
        · omega
    · simp [eq_comm]
    · rw [if_neg (by omega), if_neg (by omega)]
      constructor
      · intro h'; cases h'
      · rintro (⟨h1, -⟩ | ⟨j', h1, h2, -⟩ | ⟨h1, -⟩) <;> omega

end Sys2Proof.Machine
end

