-- ==== Sys2Proof/Laws/Bus.lean ====
section
/-! SUPPORT. The register map and everything the bus can do in one clock step (R61 to R66). -/

namespace Sys2Proof.Machine

/-- Each register is found at its own offset (R61). -/
theorem Reg.find_offset (r : Reg) : Reg.find (BitVec.ofNat 32 r.offset) = some r := by
  cases r with
  | slotState id => cases id <;> decide
  | chPeriod id => cases id <;> decide
  | chWidth id => cases id <;> decide
  | _ => decide

/-- Only its own address finds a register (R61). -/
theorem Reg.find_eq_some {a : Word} {r : Reg} (h : Reg.find a = some r) : a.toNat = r.offset := by
  exact (beq_iff_eq.1 (List.find?_some (p := fun r : Reg => r.offset == a.toNat) (l := Reg.all) h)).symm

/-- No register is at an address that is no register's offset (R61, R64). -/
theorem Reg.find_eq_none {a : Word} (h : ∀ r : Reg, r.offset ≠ a.toNat) : Reg.find a = none := by
  unfold Reg.find
  rw [List.find?_eq_none]
  exact fun r _ hr => h r (beq_iff_eq.1 hr)

/-- What an accepted write can do (R65): issue a command, store an operand register, or nothing. -/
theorem writeReg_cases (a v : Word) (s : State) :
    (a = 0x00 ∧ writeReg a v s = { s with seq := .exec v 0 }) ∨ (a = 0x04 ∧ writeReg a v s = { s with period := v }) ∨
      (a = 0x08 ∧ writeReg a v s = { s with width := v }) ∨
      (a ≠ 0x00 ∧ a ≠ 0x04 ∧ a ≠ 0x08 ∧ writeReg a v s = s) := by
  by_cases h0 : a = 0x00
  · subst h0; exact .inl ⟨rfl, rfl⟩
  by_cases h4 : a = 0x04
  · subst h4; exact .inr (.inl ⟨rfl, rfl⟩)
  by_cases h8 : a = 0x08
  · subst h8; exact .inr (.inr (.inl ⟨rfl, rfl⟩))
  refine .inr (.inr (.inr ⟨h0, h4, h8, ?_⟩))
  unfold writeReg
  split
  · next h => exact absurd (BitVec.eq_of_toNat_eq (Reg.find_eq_some h)) h0
  · next h => exact absurd (BitVec.eq_of_toNat_eq (Reg.find_eq_some h)) h4
  · next h => exact absurd (BitVec.eq_of_toNat_eq (Reg.find_eq_some h)) h8
  · rfl

/-- A read does not depend on what the clock changes (R64). -/
theorem readReg_beginClock (s : State) (a : Word) : readReg s.beginClock a = readReg s a := by
  unfold readReg
  split
  · next r _ => cases r <;> rfl
  · rfl

/-- The bus on a read (R64). -/
theorem State.serveBus_read {s : State} {a : Word} {width : Nat} {rest : List Access}
    (h : s.host = .read a width :: rest) : s.serveBus = { s with host := rest, busRdata := readReg s a } := by
  simp only [State.serveBus, h]

/-- The bus on a held write (R66). -/
theorem State.serveBus_held {s : State} {a v : Word} {width : Nat} {rest : List Access}
    (h : s.host = .write a width v :: rest) (hb : s.busy = true) : s.serveBus = s := by
  simp only [State.serveBus, h, hb, if_true]

/-- The bus on an accepted write (R65). -/
theorem State.serveBus_write {s : State} {a v : Word} {width : Nat} {rest : List Access}
    (h : s.host = .write a width v :: rest) (hb : s.busy = false) :
    s.serveBus = writeReg a v { s with host := rest } := by
  simp [State.serveBus, h, hb]

/-- The bus on a `wait` (R90). -/
theorem State.serveBus_wait {s : State} {rest : List Access} (h : s.host = .wait :: rest) :
    s.serveBus = { s with host := if s.busy then s.host else rest, busRdata := readReg s 0x0C } := by
  simp only [State.serveBus, h]
  rfl

/-- What the bus leaves alone: it writes PERIOD, WIDTH, the sequencer, the read data and the queue, nothing else. -/
theorem State.serveBus_frame (s : State) :
    s.serveBus = { s with
      period := s.serveBus.period, width := s.serveBus.width, seq := s.serveBus.seq,
      busRdata := s.serveBus.busRdata, host := s.serveBus.host } := by
  unfold State.serveBus
  split
  · rfl
  · rfl
  · rfl
  · next addr w v rest _ =>
    split
    · rfl
    · obtain ⟨-, h⟩ | ⟨-, h⟩ | ⟨-, h⟩ | ⟨-, -, -, h⟩ := writeReg_cases addr v { s with host := rest } <;> rw [h]
  · rfl

/-- While BUSY = 1 the bus changes the read data and the queue only (R66). -/
theorem State.serveBus_busy {s : State} (h : s.busy = true) :
    s.serveBus.seq = s.seq ∧ s.serveBus.period = s.period ∧ s.serveBus.width = s.width := by
  unfold State.serveBus
  split <;> simp [h]

/-- While Idle, the bus leaves the sequencer Idle or puts an accepted command at step 0 (R65, R66). -/
theorem State.serveBus_idle {s : State} (h : s.seq = .idle) :
    s.serveBus.seq = .idle ∨ ∃ w, s.serveBus.seq = .exec w 0 ∧ s.serveBus.period = s.period ∧
      s.serveBus.width = s.width := by
  have hb : s.busy = false := by simp [State.busy, h]
  unfold State.serveBus
  split
  · exact .inl h
  · exact .inl h
  · exact .inl h
  · next addr w v rest _ =>
    rw [if_neg (by simp [hb])]
    obtain ⟨-, h'⟩ | ⟨-, h'⟩ | ⟨-, h'⟩ | ⟨-, -, -, h'⟩ := writeReg_cases addr v { s with host := rest } <;> rw [h']
    · exact .inr ⟨v, rfl, rfl, rfl⟩
    · exact .inl h
    · exact .inl h
    · exact .inl h
  · exact .inl h

/-- The queue after the bus: as before, or without its head (R67). -/
theorem State.serveBus_host (s : State) : s.serveBus.host = s.host ∨ s.serveBus.host = s.host.tail := by
  unfold State.serveBus
  split
  · exact .inl rfl
  · next h => rw [h]; exact .inr rfl
  · next h => rw [h]; exact .inr rfl
  · next addr w v rest h =>
    split
    · exact .inl rfl
    · rw [h]
      obtain ⟨-, h'⟩ | ⟨-, h'⟩ | ⟨-, h'⟩ | ⟨-, -, -, h'⟩ := writeReg_cases addr v { s with host := rest } <;>
        rw [h'] <;> exact .inr rfl
  · next rest h =>
    cases s.busy
    · rw [h]; exact .inr rfl
    · exact .inl rfl

end Sys2Proof.Machine
end

