-- ==== Sys2Proof/Laws/Exec.lean ====
section
/-! SUPPORT. What `exec` can do, once for all commands: step 0, a pin write, or a drive step. -/

namespace Sys2Proof.Machine

open Sys2Proof.Safety

/-- Step 0 of each command (R101). -/
def step0 : Instr → State → Step0
  | .nop => fun s => .done false s
  | .setMotor slot dir flg => setMotorBody slot dir flg
  | .getMotor slot => getMotorBody slot
  | .bindRegLines => bindRegLinesBody
  | .setDirection slot dir => setDirectionBody slot dir
  | .invertDirection slot => invertDirectionBody slot
  | .serialize => serializeBody
  | .start slot flg => startBody slot flg
  | .stop slot => stopBody slot
  | .bindServoLine => bindServoLineBody
  | .setAngle angle => setAngleBody angle
  | .illegal _ => fun s => .raised .illegal s

/-- The drive step of START and STOP; no other command has one (R101). -/
def driveOf : Instr → State → State
  | .start slot flg => startDrive slot flg
  | .stop slot => stopDrive slot
  | _ => id

/-- `exec` answers a next state exactly in these cases: step 0 of any command, a pin write of a serializing command,
the last of them where there is no drive step, or the drive step. -/
theorem exec_next {i : Instr} {s t : State} :
    exec i s = .next t ↔
      (s.phase = 0 ∧ t = (step0 i s).close i) ∨
      (∃ j, s.phase = j + 1 ∧ j + 2 < stepCount i ∧ t = (s.pushWrite j).advance i) ∨
      (stepCount i = 27 ∧ s.phase = 26 ∧ t = (s.pushWrite 25).finish false) ∨
      (stepCount i = 28 ∧ s.phase = 27 ∧ t = (driveOf i s).finish false) := by
  cases i <;>
    simp only [exec, execNop, execSetMotor, execGetMotor, execBindRegLines, execSetDirection, execInvertDirection,
      execSerialize, execStart, execStop, execBindServoLine, execSetAngle, execIllegal,
      oneStep_next, pushCommand_next, pushThenDrive_next, step0, driveOf, stepCount] <;>
    simp <;> grind

/-- Everything step 0 of a command can come to, with what its checks established. -/
inductive Step0Case (s : State) : Instr → Step0 → Prop where
  | raised (i : Instr) (e : Err) (he : e ≠ .setup) (hm : e ∈ errorsOf i) : Step0Case s i (.raised e s)
  | refused (i : Instr) (hg : s.acqGrant = false) (hm : .setup ∈ errorsOf i) :
      Step0Case s i (.raised .setup s.request)
  | nop : Step0Case s .nop (.done false s)
  | bound (id : SlotId) (d : Dir) (hg : s.acqGrant = true) :
      Step0Case s (.setMotor id.num d true) (.done false (s.request.install id d true))
  | detached (id : SlotId) (d : Dir) : Step0Case s (.setMotor id.num d false) (.done false (s.install id d false))
  | occupant (id : SlotId) (ho : (s.slots.get id).occ = true) :
      Step0Case s (.getMotor id.num) (.done false { s with result := resultWord id.num (s.slots.get id) })
  | lines (hg : s.acqGrant = true) : Step0Case s .bindRegLines (.done false s.request.bindLines)
  | turn (id : SlotId) (d : Dir) (ho : (s.slots.get id).occ = true) (hb : s.regBound = true) :
      Step0Case s (.setDirection id.num d) (.push (s.turn id d))
  | flip (id : SlotId) (ho : (s.slots.get id).occ = true) (hb : s.regBound = true) :
      Step0Case s (.invertDirection id.num) (.push (s.turn id (Dir.flip (s.slots.get id).dir)))
  | noMotor (slot : BitVec 3) (ho : s.occupied slot = none) : Step0Case s (.invertDirection slot) (.done true s)
  | serialize (hb : s.regBound = true) : Step0Case s .serialize (.push s)
  | start (id : SlotId) (flg : Bool) (ho : (s.slots.get id).occ = true)
      (hv : flg = false → validPwm s.period s.width = true) (hb : s.regBound = true)
      (hl : (s.slots.get id).line = true) : Step0Case s (.start id.num flg) (.push s)
  | stop (id : SlotId) (ho : (s.slots.get id).occ = true) (hb : s.regBound = true)
      (hl : (s.slots.get id).line = true) : Step0Case s (.stop id.num) (.push s)
  | servoLine (hg : s.acqGrant = true) :
      Step0Case s .bindServoLine (.done false { s.request with servoBound := true, servoActive := false })
  | angle (a : Byte) (ha : angleOutOfRange a = false) (hb : s.servoBound = true) :
      Step0Case s (.setAngle a) (.done false (s.driveServo a))

/-- The checks of a command that drives a motor line (R174, R175). -/
theorem driveChecks_cases (s : State) (id : SlotId) :
    (∃ e, (e = .cfgRegLines ∨ e = .cfgPin) ∧ driveChecks s id = .raised e s) ∨
    (s.regBound = true ∧ (s.slots.get id).line = true ∧ driveChecks s id = .push s) := by
  unfold driveChecks
  cases s.regBound <;> cases (s.slots.get id).line <;> simp

theorem step0_case (i : Instr) (s : State) : Step0Case s i (step0 i s) := by
  cases i with
  | nop => exact .nop
  | illegal w => exact .raised _ _ (by decide) (by simp [errorsOf])
  | setMotor slot d flg =>
    simp only [step0, setMotorBody]
    split
    · exact .raised _ _ (by decide) (by cases flg <;> simp_all [errorsOf])
    · next id hid =>
      rw [SlotId.ofField_eq_some.1 hid]
      cases flg
      · exact .detached id d
      · cases hg : s.acqGrant
        · exact .refused _ hg (by simp [errorsOf])
        · exact .bound id d hg
  | getMotor slot =>
    simp only [step0, getMotorBody]
    split
    · exact .raised _ _ (by decide) (by simp [errorsOf])
    · next id hid =>
      obtain ⟨rfl, ho⟩ := State.occupied_eq_some.1 hid
      exact .occupant id ho
  | bindRegLines =>
    simp only [step0, bindRegLinesBody]
    cases hg : s.acqGrant
    · exact .refused _ hg (by simp [errorsOf])
    · exact .lines hg
  | setDirection slot d =>
    simp only [step0, setDirectionBody]
    split
    · exact .raised _ _ (by decide) (by simp [errorsOf])
    · next id hid =>
      obtain ⟨rfl, ho⟩ := State.occupied_eq_some.1 hid
      cases hb : s.regBound
      · exact .raised _ _ (by decide) (by simp [errorsOf])
      · exact .turn id d ho hb
  | invertDirection slot =>
    simp only [step0, invertDirectionBody]
    split
    · next hid => exact .noMotor slot hid
    · next id hid =>
      obtain ⟨rfl, ho⟩ := State.occupied_eq_some.1 hid
      cases hb : s.regBound
      · exact .raised _ _ (by decide) (by simp [errorsOf])
      · exact .flip id ho hb
  | serialize =>
    simp only [step0, serializeBody]
    cases hb : s.regBound
    · exact .raised _ _ (by decide) (by simp [errorsOf])
    · exact .serialize hb
  | start slot flg =>
    simp only [step0, startBody]
    split
    · exact .raised _ _ (by decide) (by cases flg <;> simp_all [errorsOf])
    · next id hid =>
      obtain ⟨rfl, ho⟩ := State.occupied_eq_some.1 hid
      split
      · exact .raised _ _ (by decide) (by cases flg <;> simp_all [errorsOf])
      · next hv =>
        obtain ⟨e, he, h⟩ | ⟨hb, hl, h⟩ := driveChecks_cases s id <;> rw [h]
        · obtain rfl | rfl := he <;> exact .raised _ _ (by decide) (by cases flg <;> simp_all [errorsOf])
        · exact .start id flg ho (by rintro rfl; simpa using hv) hb hl
  | stop slot =>
    simp only [step0, stopBody]
    split
    · exact .raised _ _ (by decide) (by simp [errorsOf])
    · next id hid =>
      obtain ⟨rfl, ho⟩ := State.occupied_eq_some.1 hid
      obtain ⟨e, he, h⟩ | ⟨hb, hl, h⟩ := driveChecks_cases s id <;> rw [h]
      · obtain rfl | rfl := he <;> exact .raised _ _ (by decide) (by simp [errorsOf])
      · exact .stop id ho hb hl
  | bindServoLine =>
    simp only [step0, bindServoLineBody]
    cases hg : s.acqGrant
    · exact .refused _ hg (by simp [errorsOf])
    · exact .servoLine hg
  | setAngle a =>
    simp only [step0, setAngleBody]
    cases ha : angleOutOfRange a
    · cases hb : s.servoBound
      · exact .raised _ _ (by decide) (by simp [errorsOf])
      · exact .angle a ha hb
    · exact .raised _ _ (by decide) (by simp [errorsOf])

/-- No command touches the clock's inputs or what the bus last read. -/
theorem exec_ports {i : Instr} {s t : State} (h : exec i s = .next t) :
    t.busRdata = s.busRdata ∧ t.clkIn = s.clkIn ∧ t.cycle = s.cycle ∧ t.acqGrant = s.acqGrant := by
  obtain ⟨-, rfl⟩ | ⟨j, -, -, rfl⟩ | ⟨-, -, rfl⟩ | ⟨-, -, rfl⟩ := exec_next.1 h
  · have hc := step0_case i s
    generalize step0 i s = z at hc
    cases hc <;> simp [Step0.close]
  · rw [State.pushWrite_frame]; simp
  · rw [State.pushWrite_frame]; simp
  · cases i <;> simp only [driveOf, startDrive, stopDrive] <;> repeat' split
    all_goals simp

/-- No command is refused. -/
theorem exec_ne_refused (i : Instr) (s : State) (r : Refusal) : exec i s ≠ .refused r := by
  cases i <;>
    simp only [exec, execNop, execSetMotor, execGetMotor, execBindRegLines, execSetDirection, execInvertDirection,
      execSerialize, execStart, execStop, execBindServoLine, execSetAngle, execIllegal, oneStep, pushCommand,
      pushThenDrive] <;>
    repeat' split
  all_goals simp

end Sys2Proof.Machine
end

