-- ==== Sys2Proof/Laws/Words.lean ====
section
/-! SUPPORT. The CMD format bit by bit (R80), its field readers (R81), the byte lanes (R63), and the range checks as
inequalities (R170, R200, R204). -/

namespace Sys2Proof

/-- Every bit of the CMD format (R80). -/
theorem cmdWord_getLsbD (op : BitVec 4) (slot : BitVec 3) (dir : Dir) (flg : Bool) (angle : Byte) (n : Nat) :
    (cmdWord op slot dir flg angle).getLsbD n =
      if n < 4 then op.getLsbD n
      else if n < 7 then slot.getLsbD (n - 4)
      else if n = 7 then dir.bit
      else if n = 8 then flg
      else if n < 16 then false
      else if n < 24 then angle.getLsbD (n - 16)
      else false := by
  simp only [cmdWord, BitVec.getLsbD_append, BitVec.getLsbD_ofBool, BitVec.getLsbD_zero]
  repeat' split
  all_goals first | rfl | omega | (simp; omega)

@[simp] theorem opField_cmdWord (op : BitVec 4) (slot : BitVec 3) (dir : Dir) (flg : Bool) (angle : Byte) :
    opField (cmdWord op slot dir flg angle) = op := by
  apply BitVec.eq_of_getLsbD_eq
  intro n hn
  simp only [opField, BitVec.getLsbD_extractLsb', cmdWord_getLsbD]
  grind

@[simp] theorem slotField_cmdWord (op : BitVec 4) (slot : BitVec 3) (dir : Dir) (flg : Bool) (angle : Byte) :
    slotField (cmdWord op slot dir flg angle) = slot := by
  apply BitVec.eq_of_getLsbD_eq
  intro n hn
  simp only [slotField, BitVec.getLsbD_extractLsb', cmdWord_getLsbD]
  grind

@[simp] theorem dirField_cmdWord (op : BitVec 4) (slot : BitVec 3) (dir : Dir) (flg : Bool) (angle : Byte) :
    dirField (cmdWord op slot dir flg angle) = dir := by
  cases dir <;> simp [dirField, cmdWord_getLsbD, Dir.bit, Dir.ofBit, -BitVec.getLsbD_eq_getElem]

@[simp] theorem flgField_cmdWord (op : BitVec 4) (slot : BitVec 3) (dir : Dir) (flg : Bool) (angle : Byte) :
    flgField (cmdWord op slot dir flg angle) = flg := by
  simp only [flgField, cmdWord_getLsbD]
  grind

@[simp] theorem angleField_cmdWord (op : BitVec 4) (slot : BitVec 3) (dir : Dir) (flg : Bool) (angle : Byte) :
    angleField (cmdWord op slot dir flg angle) = angle := by
  apply BitVec.eq_of_getLsbD_eq
  intro n hn
  simp only [angleField, BitVec.getLsbD_extractLsb', cmdWord_getLsbD]
  grind

/-- The format's reserved fields are 0 (R80). -/
@[simp] theorem reservedBitSet_cmdWord (op : BitVec 4) (slot : BitVec 3) (dir : Dir) (flg : Bool) (angle : Byte) :
    reservedBitSet (cmdWord op slot dir flg angle) = false := by
  have h1 : (cmdWord op slot dir flg angle).extractLsb' 9 7 = 0 := by
    apply BitVec.eq_of_getLsbD_eq
    intro n hn
    simp only [BitVec.getLsbD_extractLsb', cmdWord_getLsbD]
    grind
  have h2 : (cmdWord op slot dir flg angle).extractLsb' 24 8 = 0 := by
    apply BitVec.eq_of_getLsbD_eq
    intro n hn
    simp only [BitVec.getLsbD_extractLsb', cmdWord_getLsbD]
    grind
  simp [reservedBitSet, h1, h2]

/-- The reserved opcodes (R86). -/
theorem reservedOpcode_iff (c : Word) : reservedOpcode c = true ↔ 0xB ≤ (opField c).toNat := by
  simp only [reservedOpcode, opField, decide_eq_true_eq]

/-- An ILLEGAL word decodes to ILLEGAL (R85, R86, R88). -/
theorem decodeWord_of_illegalWord {c : Word} (h : illegalWord c = true) : decodeWord c = .illegal c := by
  unfold decodeWord
  cases hr : reservedBitSet c with
  | true => rfl
  | false =>
    have h' : 0xB ≤ (opField c).toNat := (reservedOpcode_iff c).1 (by simpa [illegalWord, hr] using h)
    simp only [Bool.false_eq_true, if_false]
    split <;> first | rfl | (exfalso; omega)

/-- The four lanes of a word make the word (R63). -/
@[simp] theorem wordOfLanes_lane (w : Word) : wordOfLanes (lane w 0) (lane w 1) (lane w 2) (lane w 3) = w := by
  apply BitVec.eq_of_getLsbD_eq
  intro n hn
  simp only [wordOfLanes, lane, BitVec.getLsbD_append, BitVec.getLsbD_extractLsb']
  grind

namespace Machine

/-- ValidPwm as inequalities (R170). -/
theorem validPwm_iff {p w : Word} : validPwm p w = true ↔ 1 ≤ p.toNat ∧ w.toNat ≤ p.toNat := by
  unfold validPwm
  rw [Bool.and_eq_true, decide_eq_true_iff, decide_eq_true_iff]

/-- The servo end points as inequalities (R200). -/
theorem ServoCal.ok_iff {cal : ServoCal} : cal.ok = true ↔ cal.minUs ≤ cal.maxUs ∧ cal.maxUs ≤ 20000 := by
  unfold ServoCal.ok
  rw [Bool.and_eq_true, decide_eq_true_iff, decide_eq_true_iff]
  rfl

/-- The angle check as an inequality (R204). -/
theorem angleOutOfRange_iff {a : Byte} : angleOutOfRange a = true ↔ 180 < a.toNat := by
  unfold angleOutOfRange
  rw [decide_eq_true_iff]

end Machine

end Sys2Proof
end

