-- ==== Sys2Proof/Laws/PerInstr.lean ====
section
/-! SUPPORT. Statements made per command, over the command as syntax, one lemma for each constructor of `Instr`. -/

namespace Sys2Proof.Laws.CanonicalWord

/-- The opcode of a command (R83); of an ILLEGAL one, its word's own. -/
def opcode : Instr → BitVec 4
  | .nop => 0x0
  | .setMotor _ _ _ => 0x1
  | .getMotor _ => 0x2
  | .bindRegLines => 0x3
  | .setDirection _ _ => 0x4
  | .invertDirection _ => 0x5
  | .serialize => 0x6
  | .start _ _ => 0x7
  | .stop _ => 0x8
  | .bindServoLine => 0x9
  | .setAngle _ => 0xA
  | .illegal w => opField w

/-- A well-formed command's canonical word carries its opcode, and is an ILLEGAL word exactly where the command is
ILLEGAL (R83, R85, R86, R89). -/
def Statement (i : Instr) : Prop :=
  i.wf = true →
    opField (encode i) = opcode i ∧ (illegalWord (encode i) = true ↔ ∃ w, i = .illegal w)

/-- A word of the CMD format with an opcode up to 0xA is no ILLEGAL word (R85, R86). -/
theorem illegalWord_cmdWord (op : BitVec 4) (slot : BitVec 3) (dir : Dir) (flg : Bool) (angle : Byte)
    (h : op.toNat < 0xB) : illegalWord (cmdWord op slot dir flg angle) = false := by
  have hop : reservedOpcode (cmdWord op slot dir flg angle) = false := by
    rw [Bool.eq_false_iff, Ne, reservedOpcode_iff, opField_cmdWord]
    omega
  rw [illegalWord, reservedBitSet_cmdWord, hop]
  rfl

/-- The statement for a command whose canonical word is of the CMD format. -/
theorem of_cmdWord {i : Instr} {op : BitVec 4} {slot : BitVec 3} {dir : Dir} {flg : Bool} {angle : Byte}
    (he : encode i = cmdWord op slot dir flg angle) (ho : opcode i = op) (h : op.toNat < 0xB)
    (hi : ∀ w, i ≠ .illegal w) : Statement i := by
  intro _
  rw [he, ho, opField_cmdWord, illegalWord_cmdWord op slot dir flg angle h]
  exact ⟨rfl, fun hf => Bool.noConfusion hf, fun ⟨w, hw⟩ => absurd hw (hi w)⟩

theorem nop : Statement .nop := of_cmdWord rfl rfl (by decide) (fun _ h => Instr.noConfusion h)

theorem setMotor (slot : BitVec 3) (dir : Dir) (flg : Bool) : Statement (.setMotor slot dir flg) :=
  of_cmdWord rfl rfl (by decide) (fun _ h => Instr.noConfusion h)

theorem getMotor (slot : BitVec 3) : Statement (.getMotor slot) :=
  of_cmdWord rfl rfl (by decide) (fun _ h => Instr.noConfusion h)

theorem bindRegLines : Statement .bindRegLines :=
  of_cmdWord rfl rfl (by decide) (fun _ h => Instr.noConfusion h)

theorem setDirection (slot : BitVec 3) (dir : Dir) : Statement (.setDirection slot dir) :=
  of_cmdWord rfl rfl (by decide) (fun _ h => Instr.noConfusion h)

theorem invertDirection (slot : BitVec 3) : Statement (.invertDirection slot) :=
  of_cmdWord rfl rfl (by decide) (fun _ h => Instr.noConfusion h)

theorem serialize : Statement .serialize :=
  of_cmdWord rfl rfl (by decide) (fun _ h => Instr.noConfusion h)

theorem start (slot : BitVec 3) (flg : Bool) : Statement (.start slot flg) :=
  of_cmdWord rfl rfl (by decide) (fun _ h => Instr.noConfusion h)

theorem stop (slot : BitVec 3) : Statement (.stop slot) :=
  of_cmdWord rfl rfl (by decide) (fun _ h => Instr.noConfusion h)

theorem bindServoLine : Statement .bindServoLine :=
  of_cmdWord rfl rfl (by decide) (fun _ h => Instr.noConfusion h)

theorem setAngle (angle : Byte) : Statement (.setAngle angle) :=
  of_cmdWord rfl rfl (by decide) (fun _ h => Instr.noConfusion h)

theorem illegal (word : Word) : Statement (.illegal word) := by
  intro h
  exact ⟨rfl, fun _ => ⟨word, rfl⟩, fun _ => h⟩

end Sys2Proof.Laws.CanonicalWord
end

