-- ==== Sys2Proof/Laws/Step.lean ====
section
/-! SUPPORT. What one clock step can do, once: a reset, an idle step, or `exec` of the running command. -/

namespace Sys2Proof.Machine

open Sys2Proof.Safety

/-- The bus refusal does not depend on what the clock changes. -/
@[simp] theorem State.beginClock_busRefusal (s : State) : s.beginClock.busRefusal = s.busRefusal := rfl

@[simp] theorem State.beginClock_busy (s : State) : s.beginClock.busy = s.busy := rfl

/-- Every way `step` can answer. -/
theorem step_cases (s : State) :
    (∃ r, s.busRefusal = some r ∧ step s = .refused r) ∨
    (s.inputs.rst = true ∧ s.busRefusal = none ∧ step s = .next s.beginClock.serveBus.applyReset) ∨
    (s.inputs.rst = false ∧ s.busRefusal = none ∧ s.beginClock.serveBus.seq = .idle ∧
      step s = .next s.beginClock.serveBus) ∨
    (s.inputs.rst = false ∧ s.busRefusal = none ∧ ∃ c k, s.beginClock.serveBus.seq = .exec c k ∧
      step s = exec (decodeWord c) s.beginClock.serveBus) := by
  unfold step
  cases hb : s.busRefusal with
  | some r => exact .inl ⟨r, rfl, rfl⟩
  | none =>
    cases hr : s.inputs.rst with
    | true => exact .inr (.inl ⟨rfl, rfl, by simp⟩)
    | false =>
      cases hs : s.beginClock.serveBus.seq with
      | idle => exact .inr (.inr (.inl ⟨rfl, rfl, rfl, by simp⟩))
      | exec c k => exact .inr (.inr (.inr ⟨rfl, rfl, c, k, rfl, by simp⟩))

/-- The ways `step` can answer a next state. -/
theorem step_next {s t : State} (h : step s = .next t) :
    (s.inputs.rst = true ∧ s.busRefusal = none ∧ t = s.beginClock.serveBus.applyReset) ∨
    (s.inputs.rst = false ∧ s.busRefusal = none ∧ s.beginClock.serveBus.seq = .idle ∧ t = s.beginClock.serveBus) ∨
    (s.inputs.rst = false ∧ s.busRefusal = none ∧ ∃ c k, s.beginClock.serveBus.seq = .exec c k ∧
      exec (decodeWord c) s.beginClock.serveBus = .next t) := by
  obtain ⟨r, -, h'⟩ | ⟨hr, hb, h'⟩ | ⟨hr, hb, hs, h'⟩ | ⟨hr, hb, c, k, hs, h'⟩ := step_cases s <;> rw [h'] at h
  · cases h
  · cases h; exact .inl ⟨hr, hb, rfl⟩
  · cases h; exact .inr (.inl ⟨hr, hb, hs, rfl⟩)
  · exact .inr (.inr ⟨hr, hb, c, k, hs, h⟩)

/-- The phase and word of a sequencer in a command. -/
theorem State.phase_of_exec {s : State} {c : Word} {k : Nat} (h : s.seq = .exec c k) : s.phase = k := by
  simp [State.phase, h]

theorem State.word_of_exec {s : State} {c : Word} {k : Nat} (i : Instr) (h : s.seq = .exec c k) : s.word i = c := by
  simp [State.word, h]

theorem State.busy_of_exec {s : State} {c : Word} {k : Nat} (h : s.seq = .exec c k) : s.busy = true := by
  simp [State.busy, h]

/-- Past its acceptance a command stays in the sequencer while the bus is served (R66). -/
theorem serveBus_seq_of_exec {s : State} {c : Word} {k : Nat} (h : s.seq = .exec c k) :
    s.beginClock.serveBus.seq = .exec c k := by
  have := (State.serveBus_busy (s := s.beginClock) (by simp [State.busy, h])).1
  rw [this]; exact h

end Sys2Proof.Machine
end

