-- ==== Sys2Proof/Laws/Run.lean ====
section
/-! SUPPORT. Runs of several clock steps, cut at any point. -/

namespace Sys2Proof.Machine

/-- A run that starts with a step answering a next state. -/
theorem run_next {s t : State} (h : step s = .next t) (n : Nat) :
    Host.Core.run Sys2Proof.core (n + 1) s = Host.Core.run Sys2Proof.core n t := by
  have h' : Sys2Proof.core.step s = .next t := h
  simp only [Host.Core.run, h']

/-- A run of `m + n` steps is `n` steps from where `m` steps lead. -/
theorem run_add {m : Nat} : ∀ {s t : State}, Host.Core.run Sys2Proof.core m s = .next t →
    ∀ n, Host.Core.run Sys2Proof.core (m + n) s = Host.Core.run Sys2Proof.core n t := by
  induction m with
  | zero =>
    intro s t h n
    cases h
    rw [Nat.zero_add]
  | succ m ih =>
    intro s t h n
    cases hs : step s with
    | next u =>
      rw [run_next hs] at h
      rw [Nat.succ_add, run_next hs, ih h n]
    | fault r =>
      have h' : Sys2Proof.core.step s = .fault r := hs
      simp only [Host.Core.run, h'] at h
      cases h
    | refused r =>
      have h' : Sys2Proof.core.step s = .refused r := hs
      simp only [Host.Core.run, h'] at h
      cases h

/-- A run's last step. -/
theorem run_succ {n : Nat} {s t : State} (h : Host.Core.run Sys2Proof.core n s = .next t) :
    Host.Core.run Sys2Proof.core (n + 1) s = step t := by
  rw [run_add h 1]
  have hc : Sys2Proof.core.step t = step t := rfl
  cases hs : step t <;> rw [hs] at hc <;> simp only [Host.Core.run, hc] <;> rfl

/-- A clock step consumes one scheduled input. -/
theorem beginClock_clkIn (s : State) : s.beginClock.clkIn = s.clkIn.tail := rfl

/-- No reset in `n + 1` steps: none now, and none in `n` steps from the next clock on. -/
theorem noReset_succ {s : State} {n : Nat} (h : Safety.NoReset s (n + 1)) :
    s.inputs.rst = false ∧ ∀ t : State, t.clkIn = s.clkIn.tail → Safety.NoReset t n := by
  unfold Safety.NoReset at *
  constructor
  · unfold State.inputs
    cases hc : s.clkIn with
    | nil => rfl
    | cons x rest => exact h x (by simp [hc])
  · intro t ht x hx
    refine h x ?_
    rw [ht] at hx
    cases hc : s.clkIn with
    | nil => simp [hc] at hx
    | cons y rest => simp only [hc, List.tail_cons] at hx; simp [hx]

end Sys2Proof.Machine
end

