-- ==== Sys2Proof/Tests/Slice0.lean ====
section
/-! SUPPORT. Tests whose expected results are the spec's (95_test_vectors.md, its V and S numbers), and for every
statement with hypotheses a state and operands that meet them. -/

namespace Sys2Proof.Tests

open Sys2Proof.Machine Sys2Proof.Safety

/-! ### The states of the tests -/

/-- Reset with the draw of 95_test_vectors.md (`srChain` 0xA5, `srStore` 0x5A), origins 0, and a grant or a refusal. -/
def base (grant : Bool) : State :=
  { State.reset with
    chans := { c1 := ⟨0, 0, 0⟩, c2 := ⟨0, 0, 0⟩, c3 := ⟨0, 0, 0⟩, c4 := ⟨0, 0, 0⟩, c5 := ⟨0, 0, 0⟩ }
    srChain := 0xA5, srStore := 0x5A, acqGrant := grant }

/-- With one motor installed. -/
def withMotor (id : SlotId) (dir : Dir) (run : Run) (line : Bool) (s : State) : State :=
  s.setSlotDir id { occ := true, dir := dir, run := run, line := line }

/-- "Ready" of V5: slot 1 holds a bound CW motor, the register lines are bound. -/
def ready : State := { withMotor .s1 .cw .idle true (base true) with regBound := true }

/-- A command in the sequencer. -/
def at' (w : Word) (k : Nat) (s : State) : State := { s with seq := .exec w k }

/-- The coming clock steps: these input levels. -/
def clocks (l : List ClkIn) (s : State) : State := { s with clkIn := l }

/-- No reset, no tick, a grant. -/
def quiet : ClkIn := { rst := false, tick := false, grant := true }

/-- A reset. -/
def rstIn : ClkIn := { rst := true, tick := false, grant := true }

/-- The host's next accesses. -/
def hosted (l : List Access) (s : State) : State := { s with host := l }

/-- What a next state shows. -/
def see {α : Type} (f : State → α) : Host.Outcome State Fault Refusal → Option α
  | .next s => some (f s)
  | .fault _ => none
  | .refused _ => none

/-- What the command word `w` leaves, in its step 0 or the step the sequencer is at. -/
def after {α : Type} (w : Word) (s : State) (f : State → α) : Option α := see f (exec (decodeWord w) s)

/-! ### WellFormed -/

theorem test_wf_accepts_legal :
    Instr.nop.wf = true ∧ (Instr.setMotor 7 .ccw true).wf = true ∧ (Instr.getMotor 0).wf = true ∧
      Instr.bindRegLines.wf = true ∧ (Instr.setDirection 5 .cw).wf = true ∧ (Instr.invertDirection 6).wf = true ∧
      Instr.serialize.wf = true ∧ (Instr.start 1 false).wf = true ∧ (Instr.stop 4).wf = true ∧
      Instr.bindServoLine.wf = true ∧ (Instr.setAngle 255).wf = true := by decide

theorem test_wf_refuses_illegal_with_legal_word :
    (Instr.illegal 0x00000006).wf = false ∧ (Instr.illegal 0x00FF01FA).wf = false := by decide

theorem test_wf_accepts_reserved_words :
    (Instr.illegal 0x0000000B).wf = true ∧ (Instr.illegal 0x00000200).wf = true ∧
      (Instr.illegal 0x80000006).wf = true := by decide

/-! ### Words written out bit by bit: RSV2, ANGLE, RSV1, FLG, DIR, SLOT, OP (R80) -/

theorem test_decode_nop : decodeWord 0b00000000_00000000_0000000_0_0_000_0000 = .nop := by decide

theorem test_decode_set_motor :
    decodeWord 0b00000000_00000000_0000000_1_1_010_0001 = .setMotor 2 .ccw true := by decide

theorem test_decode_get_motor : decodeWord 0b00000000_00000000_0000000_0_0_011_0010 = .getMotor 3 := by decide

theorem test_decode_bind_reg_lines :
    decodeWord 0b00000000_00000000_0000000_0_0_000_0011 = .bindRegLines := by decide

theorem test_decode_set_direction :
    decodeWord 0b00000000_00000000_0000000_0_1_001_0100 = .setDirection 1 .ccw := by decide

theorem test_decode_invert_direction :
    decodeWord 0b00000000_00000000_0000000_0_0_100_0101 = .invertDirection 4 := by decide

theorem test_decode_serialize : decodeWord 0b00000000_00000000_0000000_0_0_000_0110 = .serialize := by decide

theorem test_decode_start_full :
    decodeWord 0b00000000_00000000_0000000_1_0_001_0111 = .start 1 true ∧
      decodeWord 0b00000000_00000000_0000000_0_0_010_0111 = .start 2 false := by decide

theorem test_decode_stop : decodeWord 0b00000000_00000000_0000000_0_0_110_1000 = .stop 6 := by decide

theorem test_decode_bind_servo_line :
    decodeWord 0b00000000_00000000_0000000_0_0_000_1001 = .bindServoLine := by decide

theorem test_decode_set_angle :
    decodeWord 0b00000000_10110100_0000000_0_0_000_1010 = .setAngle 180 := by decide

theorem test_decode_illegal_opcodes :
    decodeWord 0b00000000_00000000_0000000_0_0_000_1011 = .illegal 0xB ∧
      decodeWord 0b00000000_00000000_0000000_0_0_000_1100 = .illegal 0xC ∧
      decodeWord 0b00000000_00000000_0000000_0_0_000_1101 = .illegal 0xD ∧
      decodeWord 0b00000000_00000000_0000000_0_0_000_1110 = .illegal 0xE ∧
      decodeWord 0b00000000_00000000_0000000_0_0_000_1111 = .illegal 0xF := by decide

/-- V7: bits 9, 15, 24 and 31. -/
theorem test_decode_reserved_bits :
    decodeWord 0b00000000_00000000_0000001_0_0_000_0000 = .illegal 0x00000200 ∧
      decodeWord 0b00000000_00000000_1000000_0_0_000_0000 = .illegal 0x00008000 ∧
      decodeWord 0b00000001_00000000_0000000_0_0_000_0000 = .illegal 0x01000000 ∧
      decodeWord 0b10000000_00000000_0000000_0_0_000_0110 = .illegal 0x80000006 := by decide

/-- R63: byte k holds bits [8k+7:8k]; 0x0034000A is SET_ANGLE 52. -/
theorem test_decode_byte_lanes : decodeBytes [0x0A, 0x00, 0x34, 0x00, 0xFF] = .ok (.setAngle 52, [0xFF]) := by rfl

theorem test_decode_truncated : decodeBytes [0x0A, 0x00, 0x34] = .error .truncated := by rfl

theorem test_decode_table_word : decodeTableWord 32 0x117 = some (.start 1 true) := by decide

/-! ### Assembler lines (95_test_vectors.md Part 3) -/

theorem test_asm_setmotor : Asm.assembleLine "setmotor 1, cw, bound ; P1".toList = some [.write 0x00 4 0x00000111] := by
  decide

theorem test_asm_startpwm :
    Asm.assembleLine "startpwm 2, 20000, 5000".toList =
      some [.write 0x04 4 0x00004E20, .write 0x08 4 0x00001388, .write 0x00 4 0x00000027] := by decide

theorem test_asm_wr_rd :
    Asm.assembleLine "wr CMD, 0x206".toList = some [.write 0x00 4 0x00000206] ∧
      Asm.assembleLine "rd CH5_WIDTH".toList = some [.read 0x64 4] := by decide

theorem test_asm_refuses : Asm.assembleLine "stop 8".toList = none ∧ Asm.assembleLine "setangle 256".toList = none := by
  decide

/-! ### Commands, two tests each at most -/

/-- NOP (R103, P4 line 12): clears ERR, leaves SETUP_FAULT. -/
theorem test_nop :
    after 0x00000000 { base true with err := 6, diag := true, setupFault := true }
      (fun t => (t.err, t.diag, t.setupFault, t.busy)) = some (0, false, true, false) := by decide

/-- V4.2. -/
theorem test_set_motor_bound :
    after 0x00000111 (base true) (fun t => (t.slots.s1, t.dirByte, t.outLevel .s1, t.err)) =
      some ({ occ := true, dir := .cw, run := .idle, line := true }, 0x04, .l, 0) := by decide

/-- V4.3, V4.5, V4.6. -/
theorem test_set_motor_errors :
    after 0x00000111 (base false) (fun t => (t.slots.s1.occ, t.err, t.setupFault)) = some (false, 6, true) ∧
      after 0x000000D1 (base true) (fun t => (t.err, t.dirByte)) = some (1, 0) ∧
      after 0x00000171 (base true) (fun t => (t.err, t.acqReq)) = some (1, false) := by decide

/-- V4.9, V4.10, V4.11. -/
theorem test_get_motor :
    after 0x00000022 (withMotor .s2 .ccw .pwm true (base true)) (·.result) = some 0x0000021B ∧
      after 0x00000032 (withMotor .s3 .cw .idle false (base true)) (·.result) = some 0x00000301 ∧
      after 0x00000042 (withMotor .s4 .ccw .running true (base true)) (·.result) = some 0x00000417 := by decide

/-- V4.12, V4.13. -/
theorem test_get_motor_not_found :
    after 0x00000032 { base true with result := 0x21B } (fun t => (t.err, t.result)) = some (2, 0x21B) ∧
      after 0x00000002 (base true) (·.err) = some 2 := by decide

/-- V3.2. -/
theorem test_bind_reg_lines :
    after 0x00000003 (base true) (fun t => (t.regBound, t.pinLevel .ser, t.pinLevel .srclk, t.pinLevel .rclk, t.trace)) =
      some (true, .l, .l, .l, [Event.bind]) := by decide

/-- V3.4, V3.5: two falling edges, no register change; a refusal keeps the binding. -/
theorem test_bind_reg_lines_again :
    after 0x00000003 { base true with regBound := true, clkLvl := .h, latLvl := .h }
        (fun t => (t.pinLevel .srclk, t.pinLevel .rclk, t.srChain, t.srStore)) = some (.l, .l, 0xA5, 0x5A) ∧
      after 0x00000003 { base false with regBound := true, clkLvl := .h }
        (fun t => (t.regBound, t.clkLvl, t.err, t.setupFault)) = some (true, .h, 6, true) := by decide

/-- V4.14, V4.24: step 0 turns the motor and recomputes the byte; the run status stays. -/
theorem test_set_direction :
    after 0x00000094 (at' 0x94 0 ready) (fun t => (t.slots.s1.dir, t.dirByte, t.seq)) =
        some (.ccw, 0x08, .exec 0x94 1) ∧
      after 0x00000094 (at' 0x94 0 (withMotor .s2 .cw .idle true (withMotor .s1 .cw .running true ready)))
        (fun t => (t.slots.s1.run, t.outLevel .s1, t.dirByte)) = some (.running, .h, 0x0A) := by decide

/-- V4.16, V4.17. -/
theorem test_set_direction_errors :
    after 0x00000094 (at' 0x94 0 { ready with regBound := false }) (fun t => (t.err, t.slots.s1.dir, t.dirByte)) =
        some (3, .cw, 0x04) ∧
      after 0x00000094 (at' 0x94 0 (base true)) (·.err) = some 2 := by decide

/-- V4.18, V4.19. -/
theorem test_invert_direction :
    after 0x00000015 (at' 0x15 0 ready) (fun t => (t.slots.s1.dir, t.dirByte)) = some (.ccw, 0x08) ∧
      after 0x00000015 (at' 0x15 0 (withMotor .s1 .ccw .idle true ready)) (fun t => (t.slots.s1.dir, t.dirByte)) =
        some (.cw, 0x04) := by decide

/-- V4.21, V4.22, V4.23. -/
theorem test_invert_direction_diag :
    after 0x00000035 (base true) (fun t => (t.err, t.diag, t.trace)) = some (0, true, []) ∧
      after 0x00000055 (base true) (fun t => (t.err, t.diag)) = some (0, true) ∧
      after 0x00000025 (withMotor .s2 .cw .idle false (base true)) (fun t => (t.err, t.diag, t.slots.s2.dir)) =
        some (3, false, .cw) := by decide

/-- V3.1 and V2.1 row 26: the last pin write latches the byte and ends the command. -/
theorem test_serialize :
    after 0x00000006 (base true) (fun t => (t.err, t.trace)) = some (3, []) ∧
      after 0x00000006 (at' 6 26 { base true with regBound := true, dirByte := 0x22, srChain := 0x22, clkLvl := .h })
        (fun t => (t.srChain, t.srStore, t.trace, t.err, t.busy)) =
          some (0x22, 0x22, [Event.pin .rclk .h], 0, false) := by decide

/-- V2.1 rows 4 and 10: a rising SRCLK edge shifts in the level on SER. -/
theorem test_serialize_shift :
    after 0x00000006 (at' 6 4 { base true with regBound := true, dirByte := 0x22 })
        (fun t => (t.srChain, t.srStore, t.trace)) = some (0x4A, 0x5A, [Event.pin .srclk .h]) ∧
      after 0x00000006 (at' 6 10 { base true with regBound := true, dirByte := 0x22, srChain := 0x94, serLvl := .h })
        (·.srChain) = some 0x29 := by decide

/-- V2.3: the SER levels of 0x22 and 0xD8. -/
theorem test_push_data :
    ((pushWrites 0x22).filter (fun e => e.1 == .ser)).map (·.2) = [.l, .l, .h, .l, .l, .l, .h, .l] ∧
      ((pushWrites 0xD8).filter (fun e => e.1 == .ser)).map (·.2) = [.h, .h, .l, .h, .h, .l, .l, .l] := by decide

/-- V5.1, V5.2: the drive step. -/
theorem test_start_drive :
    after 0x00000117 (at' 0x117 27 ready) (fun t => (t.slots.s1.run, t.outLevel .s1, t.busy)) =
        some (.running, .h, false) ∧
      after 0x00000017 (at' 0x17 27 { ready with period := 20000, width := 5000, time := 77 })
        (fun t => (t.slots.s1.run, t.chans.c1, t.outLevel .s1)) = some (.pwm, ⟨20000, 5000, 77⟩, .h) := by decide

/-- V5.3, V5.4, V5.10, V5.11, V5.13, V5.14: the check order. -/
theorem test_start_errors :
    after 0x00000017 ready (·.err) = some 5 ∧
      after 0x00000017 { ready with period := 100, width := 101 } (·.err) = some 5 ∧
      after 0x00000017 (base true) (·.err) = some 2 ∧
      after 0x00000017 { ready with regBound := false } (·.err) = some 5 ∧
      after 0x00000117 (withMotor .s1 .cw .idle false (base true)) (·.err) = some 3 ∧
      after 0x00000117 (withMotor .s1 .cw .idle false ready) (fun t => (t.err, t.trace)) = some (4, []) := by decide

/-- V5.17: the channel keeps its pair. -/
theorem test_stop_drive :
    after 0x00000018 (at' 0x18 27
        { withMotor .s1 .cw .pwm true ready with chans := ready.chans.set .c1 ⟨20000, 5000, 3⟩ })
      (fun t => (t.slots.s1.run, t.outLevel .s1, t.chans.c1)) = some (.idle, .l, ⟨20000, 5000, 3⟩) := by decide

/-- V5.19, V5.20, V5.21. -/
theorem test_stop_errors :
    after 0x00000018 (withMotor .s1 .cw .idle false ready) (·.err) = some 4 ∧
      after 0x00000018 (base true) (·.err) = some 2 ∧ after 0x00000068 ready (·.err) = some 2 := by decide

/-- V6.1, V6.2. -/
theorem test_bind_servo_line :
    after 0x00000009 (base true) (fun t => (t.servoBound, t.servoLevel, t.err)) = some (true, .l, 0) ∧
      after 0x00000009 (base false) (fun t => (t.servoBound, t.setupFault, t.err)) = some (false, true, 6) := by decide

/-- V6.8. -/
theorem test_bind_servo_line_again :
    after 0x00000009 { base true with
        servoBound := true, servoActive := true, servoAngle := 52, chans := (base true).chans.set .c5 ⟨20000, 1288, 0⟩ }
      (fun t => (t.servoActive, t.servoLevel, t.servoAngle, t.chans.c5)) =
        some (false, .l, 52, ⟨20000, 1288, 0⟩) := by decide

/-- S2.D1, V6.9. -/
theorem test_set_angle :
    after 0x0034000A { base true with servoBound := true, time := 5 } (fun t => (t.servoAngle, t.chans.c5, t.servoActive)) =
        some (52, ⟨20000, 1288, 5⟩, true) ∧
      after 0x005A01FA { base true with servoBound := true } (·.chans.c5.width) = some 1500 := by decide

/-- V6.3, V6.4. -/
theorem test_set_angle_errors :
    after 0x005A000A (base true) (·.err) = some 4 ∧ after 0x00B5000A (base true) (·.err) = some 5 := by decide

/-- V3.8, V7: no push, ERR = 7. -/
theorem test_illegal :
    after 0x00000206 { base true with regBound := true } (fun t => (t.err, t.trace, t.busy)) = some (7, [], false) ∧
      after 0x000000FB (base true) (fun t => (t.err, t.diag)) = some (7, false) := by decide

/-! ### Shared functions -/

/-- S2.A to S2.C and V1 rows 29, 70. -/
theorem test_encode_dirs :
    encodeDirs (withMotor .s4 .cw .idle false (withMotor .s2 .cw .idle false (base true))).slots = 0x22 ∧
      encodeDirs (withMotor .s1 .cw .idle false (withMotor .s4 .ccw .idle false (base true))).slots = 0x84 ∧
      encodeDirs (base true).slots = 0 := by decide

/-- V6: the default pair and the two others. -/
theorem test_angle_to_width :
    [1, 45, 134, 135, 179].map (fun a => (angleToWidth ⟨1000, 2000⟩ a).toNat) = [1005, 1250, 1744, 1750, 1994] ∧
      [1, 52, 134].map (fun a => (angleToWidth ⟨900, 2100⟩ a).toNat) = [906, 1246, 1793] ∧
      [45, 90, 135].map (fun a => (angleToWidth ⟨500, 2550⟩ a).toNat) = [1012, 1525, 2037] := by decide

/-- V5.23. -/
theorem test_wave :
    [10, 11, 12, 14, 15, 16, 17, 20].map (wave ⟨5, 2, 10⟩) = [.h, .h, .l, .l, .h, .h, .l, .h] := by decide

/-- V8.2, V8.5, V8.6. -/
theorem test_register_reads :
    readReg { base true with err := 5, setupFault := true, regBound := true, servoBound := true } 0x0C = 0x00000E50 ∧
      readReg (withMotor .s2 .ccw .pwm true (base true)) 0x24 = 0x0000001B ∧
      readReg { base true with servoBound := true, servoActive := true, servoAngle := 180 } 0x18 = 0x0000B403 := by decide

/-! ### Clock steps -/

/-- V9.2: a reset cuts a push; the chain stays as shifted. -/
theorem test_reset_during_push :
    see (fun t => (t.srChain, t.srStore, t.err, t.pinLevel .rclk, t.trace))
      (step (clocks [rstIn] (at' 6 14 { base true with
        regBound := true, dirByte := 0xD8, srChain := 0x5D, clkLvl := .h, err := 3 }))) =
      some (0x5D, 0x5A, 0, .z, [Event.reset]) := by decide

/-- V8.4: a read during a push shows BUSY and the previous command's ERR. -/
theorem test_read_while_busy :
    see (fun t => (t.busRdata, t.seq))
      (step (clocks [quiet] (hosted [.read 0x0C 4] (at' 6 3 { base true with regBound := true, err := 2 })))) =
      some (0x00000421, .exec 6 4) := by decide

/-- R66: a write is held while BUSY = 1. -/
theorem test_write_held :
    see (fun t => (t.period, t.host)) (step (clocks [quiet] (hosted [.write 4 4 9] (at' 6 3 ready)))) =
      some (0, [.write 4 4 9]) := by decide

/-- R62. -/
theorem test_bad_accesses :
    step (clocks [quiet] (hosted [.read 0x02 4] ready)) = .refused .misalignedAccess ∧
      step (clocks [quiet] (hosted [.write 0x04 2 9] ready)) = .refused .accessWidth := ⟨rfl, rfl⟩

/-- R64, R270, log 4: a read in a reset step gives the value before the reset. -/
theorem test_read_in_reset_step :
    see (fun t => (t.busRdata, t.host, t.regBound)) (step (clocks [rstIn] (hosted [.read 0x10 4] (at' 6 3 ready)))) =
      some (0x04, [], false) := by decide

/-- R238: a tick counts once; a reset restarts the count. -/
theorem test_time :
    see (·.time) (step (clocks [{ rst := false, tick := true, grant := true }] { ready with time := 41 })) = some 42 ∧
      see (·.time) (step (clocks [quiet] { ready with time := 41 })) = some 41 ∧
      see (·.time) (step (clocks [rstIn] { ready with time := 41 })) = some 0 := by decide

/-- The placed word runs in the very next step (R65): `setmotor 3, cw` from reset. -/
theorem test_placed_word :
    see (fun t => (t.dirByte, t.slots.s3.occ, t.err, t.busy)) (step ((clocks [quiet] (base true)).withFetchWord 32 0x31)) =
      some (0x01, true, 0, false) := by decide

/-! ### Witnesses: the hypotheses of each statement can be met together -/

/-- A state between two steps of a `start 1, full` push, with a quiet clock for 28 steps. -/
def pushing (k : Nat) : State := clocks (List.replicate 28 quiet) (at' 0x117 k ready)

/-- The slot invariant of a concrete bank. -/
theorem slots_ready (id : SlotId) : SlotOk (ready.slots.get id) := by
  cases id <;> constructor <;> decide

theorem chans_ready (id : SlotId) : ChanOk (ready.slots.get id).run (ready.chans.get id.chan) ready.time := by
  cases id <;> constructor <;> decide

theorem inv_ready : Inv ready where
  slots := slots_ready
  chans := chans_ready
  dirByte := by decide
  err := by decide
  angle := by decide
  cal := by decide
  servo := by intro h; cases h
  seq := trivial

theorem inv_pushing (k : Nat) (h1 : 1 ≤ k) (h2 : k < 28) : Inv (pushing k) where
  slots := slots_ready
  chans := chans_ready
  dirByte := inv_ready.dirByte
  err := inv_ready.err
  angle := inv_ready.angle
  cal := inv_ready.cal
  servo := by intro h; cases h
  seq := by
    show 1 ≤ k ∧ k < stepCount (decodeWord 0x117) ∧ _
    exact ⟨h1, h2, rfl, .s1, rfl, rfl, by intro h; cases h⟩

theorem witness_DecodeEncodeRoundTrip : (Instr.start 4 true).wf = true ∧ (Instr.illegal 0x0000000F).wf = true := by decide

theorem witness_DecoderFollowsOpcodeMap :
    (0x0000FE00 : Word).extractLsb' 9 7 ≠ 0 ∧ (0xFF000000 : Word).extractLsb' 24 8 ≠ 0 ∧
      (0x00FF01F0 : Word) &&& 0xFF00FE0F = 0x0 ∧ (0x00FF01F1 : Word) &&& 0xFF00FE0F = 0x1 ∧
      (0x00FF01F2 : Word) &&& 0xFF00FE0F = 0x2 ∧ (0x00FF01F3 : Word) &&& 0xFF00FE0F = 0x3 ∧
      (0x00FF01F4 : Word) &&& 0xFF00FE0F = 0x4 ∧ (0x00FF01F5 : Word) &&& 0xFF00FE0F = 0x5 ∧
      (0x00FF01F6 : Word) &&& 0xFF00FE0F = 0x6 ∧ (0x00FF01F7 : Word) &&& 0xFF00FE0F = 0x7 ∧
      (0x00FF01F8 : Word) &&& 0xFF00FE0F = 0x8 ∧ (0x00FF01F9 : Word) &&& 0xFF00FE0F = 0x9 ∧
      (0x00FF01FA : Word) &&& 0xFF00FE0F = 0xA ∧ 0xB ≤ ((0x0000000B : Word).extractLsb' 0 4).toNat ∧
      0xB ≤ ((0x0000000F : Word).extractLsb' 0 4).toNat := by decide

theorem witness_UnreadFieldsAreIgnored :
    illegalWord 0x005A01FA = false ∧ illegalWord 0x005A000A = false ∧
      0x005A01FA &&& readMask (opField 0x005A01FA) = 0x005A000A &&& readMask (opField 0x005A01FA) := by decide

theorem witness_StepRunsDecodedCommand :
    ((clocks [quiet] (hosted [.write 0 4 0x117] ready)).inputs.rst = false ∧
      Offered (clocks [quiet] (hosted [.write 0 4 0x117] ready)) 0x117 []) ∧
    ((pushing 26).inputs.rst = false ∧ (pushing 26).seq = .exec 0x117 26 ∧ (pushing 26).busRefusal = none) ∧
    ((clocks [quiet] ready).inputs.rst = false ∧ (clocks [quiet] ready).seq = .idle ∧
      (clocks [quiet] ready).busRefusal = none ∧ (clocks [quiet] ready).beginClock.serveBus.seq = .idle) := by
  exact ⟨⟨rfl, rfl, rfl⟩, ⟨rfl, rfl, rfl⟩, rfl, rfl, rfl, rfl⟩

/-- The clauses on the clock: a scheduled input, an empty queue, an idle entry, a next state, an asserted `acq_req`. -/
theorem witness_StepRunsDecodedCommand_clock :
    (clocks [quiet] ready).clkIn = quiet :: [] ∧ (clocks [quiet] ready).host = [] ∧
      (hosted [.idle] ready).host = .idle :: [] ∧ (∃ t, step (clocks [quiet] ready) = .next t) ∧
      see (·.acqReq) (step (clocks [quiet] (hosted [.write 0 4 3] ready))) = some true :=
  ⟨rfl, rfl, rfl, ⟨_, rfl⟩, rfl⟩

theorem witness_PseudoInstructionExpansions :
    (hosted [.wait] (pushing 3)).host = .wait :: [] ∧ (hosted [.wait] (pushing 3)).busy = true ∧
      (hosted [.wait] ready).host = .wait :: [] ∧ (hosted [.wait] ready).busy = false := ⟨rfl, rfl, rfl, rfl⟩

theorem witness_ResetStepRestoresBlock :
    (hosted [.write 0 4 6] (clocks [rstIn] (pushing 9))).inputs.rst = true ∧
      (hosted [.write 0 4 6] (clocks [rstIn] (pushing 9))).busRefusal = none := by decide

theorem witness_ResetRegistersReadZero :
    (clocks [rstIn] (pushing 9)).inputs.rst = true ∧ ∃ t, step (clocks [rstIn] (pushing 9)) = .next t := ⟨rfl, _, rfl⟩

theorem witness_ResetLeavesExternalRegister :
    (clocks [rstIn] (hosted [.read 0x0C 4] (pushing 9))).inputs.rst = true ∧
      (∃ t, step (clocks [rstIn] (hosted [.read 0x0C 4] (pushing 9))) = .next t) ∧
      (hosted [.write 0 4 6] (pushing 9)).busy = true ∧
      (∃ t, step (clocks [rstIn] (hosted [.write 0 4 6] (pushing 9))) = .next t) ∧
      (hosted [.write 0 4 6] ready).busy = false ∧
      ∃ t, step (clocks [rstIn] (hosted [.write 0 4 6] ready)) = .next t :=
  ⟨rfl, ⟨_, rfl⟩, rfl, ⟨_, rfl⟩, rfl, _, rfl⟩

theorem witness_MisalignedAccessIsRefused :
    (clocks [quiet] (hosted [.read 0xFFFFFFFF 4] ready)).host = .read 0xFFFFFFFF 4 :: [] ∧
      (0xFFFFFFFF : Word).toNat % 4 ≠ 0 ∧
      (clocks [quiet] (hosted [.write 0x01 4 9] ready)).host = .write 0x01 4 9 :: [] ∧ (0x01 : Word).toNat % 4 ≠ 0 ∧
      (clocks [quiet] (hosted [.write 0x00 3 9] ready)).host = .write 0x00 3 9 :: [] ∧ 3 ≠ 4 := by decide

theorem witness_WritesStallWhileBusy :
    ((hosted [.write 4 4 9] (pushing 3)).inputs.rst = false ∧ (hosted [.write 4 4 9] (pushing 3)).busy = true ∧
      ∃ t, step (hosted [.write 4 4 9] (pushing 3)) = .next t) ∧
    ((clocks [quiet] (hosted [.write 0 4 0x117] ready)).inputs.rst = false ∧
      (clocks [quiet] (hosted [.write 0 4 0x117] ready)).busy = false ∧
      ∃ t, step (clocks [quiet] (hosted [.write 0 4 0x117] ready)) = .next t) :=
  ⟨⟨rfl, rfl, _, rfl⟩, rfl, rfl, _, rfl⟩

theorem witness_HostAccessesKeepOrder : ∃ t, step (clocks [quiet] (hosted [.read 0x0C 4, .idle] ready)) = .next t :=
  ⟨_, rfl⟩

theorem witness_ReadHasNoSideEffect :
    (clocks [quiet] (hosted [.read 0x7C 4] ready)).host = .read 0x7C 4 :: [] ∧ (0x7C : Word).toNat % 4 = 0 ∧
      (∃ t, step (clocks [quiet] (hosted [.read 0x7C 4] ready)) = .next t) ∧
      ∃ t, step (clocks [rstIn] (hosted [.read 0x7C 4] ready)) = .next t := ⟨rfl, rfl, ⟨_, rfl⟩, _, rfl⟩

theorem witness_RegisterMapReads :
    (0x20 : Word).toNat = 0x1C + 4 * SlotId.s1.num.toNat ∧ (0x2C : Word).toNat = 0x1C + 4 * SlotId.s4.num.toNat ∧
      (0x40 : Word).toNat = 0x38 + 8 * SlotId.s1.num.toNat ∧ (0x58 : Word).toNat = 0x38 + 8 * SlotId.s4.num.toNat ∧
      (0x30 ≤ (0x30 : Word).toNat ∧ (0x30 : Word).toNat ≤ 0x3F) ∧
      (0x30 ≤ (0x3F : Word).toNat ∧ (0x3F : Word).toNat ≤ 0x3F) ∧
      0x68 ≤ (0x68 : Word).toNat ∧ 0x68 ≤ (0xFFFFFFFF : Word).toNat := by decide

theorem witness_AcceptedWriteEffect :
    (hosted [.write 0x00 4 9] ready).host = .write 0x00 4 9 :: [] ∧ (hosted [.write 0x04 4 9] ready).busy = false ∧
      (hosted [.write 0x0C 4 9] ready).host = .write 0x0C 4 9 :: [] ∧
      (0x0C : Word) ≠ 0x00 ∧ (0x0C : Word) ≠ 0x04 ∧ (0x0C : Word) ≠ 0x08 ∧
      (0xFFFFFFFF : Word) ≠ 0x00 ∧ (0xFFFFFFFF : Word) ≠ 0x04 ∧ (0xFFFFFFFF : Word) ≠ 0x08 := by decide

theorem witness_NopWritesStatusOnly :
    (0x00FF01F0 : Word) &&& 0xFF00FE0F = 0x0 ∧ (at' 0 0 ready).seq = .exec 0 0 := by decide

theorem witness_IllegalReportsSeven :
    (at' 0x200 0 ready).seq = .exec 0x200 0 ∧ (0x00000200 : Word).extractLsb' 9 7 ≠ 0 ∧
      (0x01000000 : Word).extractLsb' 24 8 ≠ 0 ∧
      0xB ≤ ((0x0000000B : Word).extractLsb' 0 4).toNat := by decide

theorem witness_ValidSlotNumbers :
    (1 ≤ (1 : BitVec 3).toNat ∧ (4 : BitVec 3).toNat ≤ 4) ∧ SlotId.ofField 4 = some .s4 ∧ SlotId.ofField 5 = none := by
  decide

theorem witness_SetMotorInstalls :
    (0x00000111 : Word) &&& 0xFF00FE0F = 0x1 ∧ (at' 0 0 (base true)).seq = .exec 0 0 ∧
      (at' 0 0 (base true)).acqGrant = true ∧ (at' 0 0 (base false)).acqGrant = false ∧ (0 : BitVec 3).toNat = 0 ∧
      5 ≤ (5 : BitVec 3).toNat ∧
      5 ≤ (7 : BitVec 3).toNat := by decide

theorem witness_GetMotorReadsOccupant :
    (0x00000022 : Word) &&& 0xFF00FE0F = 0x2 ∧ (at' 0x22 0 ready).seq = .exec 0x22 0 ∧
      (ready.slots.get .s1).occ = true ∧
      (∀ id : SlotId, (0 : BitVec 3) = id.num → (ready.slots.get id).occ = false) ∧
      (∀ id : SlotId, (2 : BitVec 3) = id.num → (ready.slots.get id).occ = false) := by
  refine ⟨by decide, by decide, by decide, ?_, ?_⟩ <;> (intro id; cases id <;> decide)

/-- The hypotheses that the serializing commands share. -/
theorem witness_serializing_steps :
    (at' 0x94 0 ready).seq = .exec 0x94 0 ∧ ((at' 0x94 0 ready).slots.get .s1).occ = true ∧
      (at' 0x94 0 ready).regBound = true ∧ ((at' 0x94 0 ready).slots.get .s1).line = true ∧
      (at' 0x94 0 { ready with regBound := false }).regBound = false ∧
      ((at' 0x94 0 (withMotor .s1 .cw .idle false ready)).slots.get .s1).line = false ∧
      (∀ id : SlotId, (7 : BitVec 3) = id.num → (ready.slots.get id).occ = false) := by
  refine ⟨by decide, by decide, by decide, by decide, by decide, by decide, ?_⟩
  intro id; cases id <;> decide

/-- `PushSteps`: the first pin write, the last but one, and the last. -/
theorem witness_PushSteps :
    (pushing 1).seq = .exec 0x117 (0 + 1) ∧ (pushWrites (pushing 1).dirByte)[0]? = some (.rclk, .l) ∧
      (pushing 25).seq = .exec 0x117 (24 + 1) ∧ (pushWrites (pushing 25).dirByte)[24]? = some (.srclk, .h) ∧
      (pushing 26).seq = .exec 0x117 (25 + 1) ∧ (pushWrites (pushing 26).dirByte)[25]? = some (.rclk, .h) := by
  refine ⟨rfl, rfl, rfl, rfl, rfl, rfl⟩

theorem witness_SetDirectionTurnsAndPushes : (0x00000094 : Word) &&& 0xFF00FE0F = 0x4 := by decide

theorem witness_InvertDirectionFlipsAndPushes : (0x00000015 : Word) &&& 0xFF00FE0F = 0x5 := by decide

theorem witness_SerializePushesStepByStep :
    (0x00000006 : Word) &&& 0xFF00FE0F = 0x6 ∧ (at' 6 0 ready).seq = .exec 6 0 ∧ (at' 6 0 ready).regBound = true ∧
      (at' 6 0 (base true)).seq = .exec 6 0 ∧ (at' 6 0 (base true)).regBound = false := by decide

theorem witness_DirectionLeavesStatusAlone :
    (∃ t, exec .serialize (at' 6 26 ready) = .next t) ∧ (∃ t, exec (.getMotor 1) ready = .next t) ∧
      (∃ t, exec (.setDirection 1 .ccw) ready = .next t) ∧ ∃ t, exec (.invertDirection 1) ready = .next t :=
  ⟨⟨_, rfl⟩, ⟨_, rfl⟩, ⟨_, rfl⟩, _, rfl⟩

theorem witness_EncoderProperties :
    SlotId.s1 ≠ SlotId.s4 ∧ (∀ id, ((base true).slots.get id).occ = false) ∧
      ∀ id, ((withMotor .s4 .cw .idle false (withMotor .s3 .ccw .idle false (withMotor .s2 .cw .idle false
        ready))).slots.get id).occ = true := by
  refine ⟨by decide, ?_, ?_⟩ <;> (intro id; cases id <;> decide)

theorem witness_BindRegLinesAcquires :
    (0x00000003 : Word) &&& 0xFF00FE0F = 0x3 ∧ (at' 0 0 (base true)).seq = .exec 0 0 ∧
      (at' 0 0 (base true)).acqGrant = true ∧ (at' 0 0 (base false)).acqGrant = false := by decide

theorem witness_PinWriteEffect :
    ready.regBound = true ∧ (base true).regBound = false ∧ (ready.clkLvl = .l ∧ Drive.h = .h) := by decide

/-- A step with a rising SRCLK edge, and one with a rising RCLK edge. -/
theorem witness_ExternalRegisterReacts :
    see (fun t => ((pushing 4).pinLevel .srclk, t.pinLevel .srclk)) (step (pushing 4)) = some (.l, .h) ∧
      see (fun t => ((pushing 26).pinLevel .rclk, t.pinLevel .rclk)) (step (pushing 26)) = some (.l, .h) := by decide

theorem witness_PushLatchesDirectionByte :
    ((pushing 1).seq = .exec 0x117 1 ∧ stepCount (decodeWord 0x117) = 28 ∧ (pushing 1).regBound = true ∧
      NoReset (pushing 1) 26 ∧ GoodHost (pushing 1)) ∧
    (at' 6 1 (pushing 0)).seq = .exec 6 1 ∧ stepCount (decodeWord 6) = 27 ∧ (at' 6 1 (pushing 0)).regBound = true ∧
      NoReset (at' 6 1 (pushing 0)) 26 ∧ GoodHost (at' 6 1 (pushing 0)) := by
  unfold NoReset GoodHost
  decide

theorem witness_OutputsStableDuringPush :
    (pushing 25).seq = .exec 0x117 25 ∧ (∃ t, step (pushing 25) = .next t) ∧ ∃ t, step (pushing 27) = .next t :=
  ⟨rfl, ⟨_, rfl⟩, _, rfl⟩

theorem witness_OperandsHoldWhileBusy :
    (pushing 1).inputs.rst = false ∧ (pushing 1).seq = .exec 0x117 1 ∧ ∃ t, step (pushing 1) = .next t :=
  ⟨rfl, rfl, _, rfl⟩

theorem witness_StartChecksPushesDrives :
    (0x00000017 : Word) &&& 0xFF00FE0F = 0x7 ∧ (at' 0x17 27 ready).seq = .exec 0x17 27 ∧
      ¬(1 ≤ ready.period.toNat ∧ ready.width.toNat ≤ ready.period.toNat) ∧
      ¬(1 ≤ (100 : Word).toNat ∧ (101 : Word).toNat ≤ (100 : Word).toNat) ∧
      (1 ≤ (1 : Word).toNat ∧ (1 : Word).toNat ≤ (1 : Word).toNat) := by decide

theorem witness_StopChecksPushesDrives :
    (0x00000018 : Word) &&& 0xFF00FE0F = 0x8 ∧ (at' 0x18 0 ready).seq = .exec 0x18 0 ∧
      (at' 0x18 27 ready).seq = .exec 0x18 27 := by decide

/-- A host that offers a command to the ready block, with a valid pair and 28 quiet clock steps. -/
def offering (w : Word) : State :=
  hosted [.write 0 4 w, .read 0x0C 4]
    (clocks (List.replicate 28 quiet) { ready with period := 20000, width := 5000 })

theorem witness_StartRunsInTwentyEightSteps :
    Offered (offering 0x17) 0x17 [.read 0x0C 4] ∧ decodeWord 0x17 = .start SlotId.s1.num false ∧
      ((offering 0x17).slots.get .s1).occ = true ∧ ((offering 0x17).slots.get .s1).line = true ∧
      (offering 0x17).regBound = true ∧ validPwm (offering 0x17).period (offering 0x17).width = true ∧
      NoReset (offering 0x17) 28 ∧ GoodHost (offering 0x17) := by
  refine ⟨⟨rfl, rfl⟩, by decide, by decide, by decide, by decide, by decide, ?_, ?_⟩
  · unfold NoReset; decide
  · unfold GoodHost; decide

theorem witness_SetDirectionRunsInTwentySevenSteps :
    Offered (offering 0x94) 0x94 [.read 0x0C 4] ∧ decodeWord 0x94 = .setDirection SlotId.s1.num .ccw ∧
      ((offering 0x94).slots.get .s1).occ = true ∧ (offering 0x94).regBound = true ∧ NoReset (offering 0x94) 27 ∧
      GoodHost (offering 0x94) := by
  refine ⟨⟨rfl, rfl⟩, by decide, by decide, by decide, ?_, ?_⟩
  · unfold NoReset; decide
  · unfold GoodHost; decide

/-- A START about to drive its line, its push done. -/
def pushed : State := { pushing 27 with latLvl := .h, clkLvl := .h, srChain := 0x04, srStore := 0x04 }

theorem pushAt_pushed : PushAt pushed 26 where
  latch := by decide
  clock := by decide
  data := by decide
  chain := by decide
  store := by decide

theorem inv_pushed : Inv pushed where
  slots := slots_ready
  chans := chans_ready
  dirByte := by decide
  err := by decide
  angle := by decide
  cal := by decide
  servo := by intro h; cases h
  seq := (inv_pushing 27 (by decide) (by decide)).seq

theorem witness_DirectionLatchedBeforeDrive :
    Inv pushed ∧ PushProgress pushed ∧ pushed.seq = .exec 0x117 27 ∧ pushed.inputs.rst = false ∧
      ∃ t, step pushed = .next t :=
  ⟨inv_pushed, pushAt_pushed, rfl, rfl, _, rfl⟩

/-- Each of the four transitions occurs. -/
theorem witness_RunStatusTransitions :
    see (·.slots.s1.run) (step pushed) = some .running ∧
      see (·.slots.s1.run) (step { pushed with seq := .exec 0x17 27 }) = some .pwm ∧
      see (·.slots.s1.run) (step (withMotor .s1 .cw .running true { pushed with seq := .exec 0x18 27 })) = some .idle ∧
      see (·.slots.s1.run) (step (withMotor .s1 .cw .running true { pushed with seq := .exec 0x91 0 })) = some .idle := by
  decide

theorem witness_ChannelsAreIndependent :
    (∃ t, exec (.start 1 true) (at' 0x117 27 ready) = .next t) ∧ drivesSlot .s2 (.start 1 true) = false ∧
      isServo (.start 1 true) = false :=
  ⟨⟨_, rfl⟩, by decide, by decide⟩

theorem witness_WaveformPeriods :
    (validPwm 5 2 = true ∧ 4 < (5 : Word).toNat) ∧ validPwm 100 0 = true ∧ validPwm 100 100 = true := by decide

theorem witness_OutputPortLevels :
    (base true).regBound = false ∧ ready.regBound = true ∧ ((base true).slots.get .s1).line = false ∧
      (ready.slots.get .s1).line = true ∧ (ready.slots.get .s1).run = .idle ∧
      ((withMotor .s1 .cw .running true ready).slots.get .s1).run = .running ∧
      ((withMotor .s1 .cw .pwm true ready).slots.get .s1).run = .pwm ∧ (base true).servoBound = false ∧
      ({ ready with servoBound := true } : State).servoBound = true := by decide

theorem witness_IsRunningReadsRunBits : SlotOk (ready.slots.get .s2) ∧ (ready.slots.get .s2).occ = false :=
  ⟨slots_ready .s2, rfl⟩

theorem witness_BindServoLineAcquires :
    (0x00000009 : Word) &&& 0xFF00FE0F = 0x9 ∧ (at' 0 0 (base true)).seq = .exec 0 0 ∧
      (at' 0 0 (base true)).acqGrant = true ∧ (at' 0 0 (base false)).acqGrant = false := by decide

theorem witness_SetAngleDrivesServo :
    (0x00B4000A : Word) &&& 0xFF00FE0F = 0xA ∧ (at' 0x00B4000A 0 ready).seq = .exec 0x00B4000A 0 ∧
      180 < (181 : Byte).toNat ∧ (180 : Byte).toNat ≤ 180 ∧
      ready.servoBound = false ∧ ({ ready with servoBound := true } : State).servoBound = true := by decide

theorem witness_AngleToWidthFormula :
    ServoCal.ok ⟨0, 20000⟩ = true ∧ ServoCal.ok ⟨20000, 20000⟩ = true ∧ (180 : Byte).toNat ≤ 180 := by decide

theorem witness_AngleMappingProperties :
    ServoCal.ok ⟨500, 2550⟩ = true ∧ (52 : Byte).toNat ≤ (180 : Byte).toNat ∧ (180 : Byte).toNat ≤ 180 := by decide

theorem witness_ServoIsIndependent :
    (∃ t, exec (.setAngle 90) { ready with servoBound := true } = .next t) ∧ isServo (.setAngle 90) = true ∧
      (∃ t, exec .serialize (at' 6 4 ready) = .next t) ∧ isServo .serialize = false :=
  ⟨⟨_, rfl⟩, by decide, ⟨_, rfl⟩, by decide⟩

theorem witness_ErrorsArePrecise :
    see (fun t => (t.seq, t.err)) (exec .serialize (base true)) = some (.idle, 3) ∧
      see (fun t => (t.seq, t.err)) (exec .bindServoLine (base false)) = some (.idle, 6) := by decide

theorem witness_StatusWrittenAtTheEnd :
    see (·.seq) (exec .serialize (at' 6 25 ready)) = some (.exec 6 26) ∧
      see (fun t => (t.seq, t.diag)) (exec (.invertDirection 0) ready) = some (.idle, true) ∧
      see (fun t => (t.seq, t.err)) (exec (.start 1 false) ready) = some (.idle, Err.range.code) ∧
      Err.range ∈ errorsOf (.start 1 false) := by decide

theorem witness_SetupFaultIsSticky :
    (clocks [quiet] { ready with setupFault := true }).inputs.rst = false ∧
      see (·.setupFault) (step (clocks [quiet] { ready with setupFault := true })) = some true ∧
      see (fun t => (t.setupFault, t.err))
        (step (clocks [{ rst := false, tick := true, grant := false }] (hosted [.write 0 4 9] ready))) =
          some (true, 6) := by decide

theorem witness_RegistersHaveOneWriter :
    (∃ t, exec (.getMotor 1) ready = .next t) ∧ turnsSlot (.getMotor 1) = false ∧
      (∃ t, exec .serialize (at' 6 4 ready) = .next t) ∧ ∀ slot, Instr.serialize ≠ .getMotor slot :=
  ⟨⟨_, rfl⟩, rfl, ⟨_, rfl⟩, by intro slot h; cases h⟩

theorem witness_CommandsEndInTime :
    Inv (pushing 1) ∧ (pushing 1).seq = .exec 0x117 1 ∧ NoReset (pushing 1) 28 ∧ GoodHost (pushing 1) := by
  refine ⟨inv_pushing 1 (by decide) (by decide), rfl, ?_, ?_⟩
  · unfold NoReset; decide
  · unfold GoodHost; decide

theorem witness_BlockNeverFaults :
    Inv (pushing 27) ∧ (pushing 27).busRefusal = none ∧ Inv ready ∧
      (hosted [.read 1 4] ready).busRefusal = some .misalignedAccess :=
  ⟨inv_pushing 27 (by decide) (by decide), rfl, inv_ready, rfl⟩

theorem witness_NoSuchPhaseFaults :
    stepCount .nop ≤ (at' 0 1 ready).phase ∧ stepCount (.start 1 true) ≤ (at' 0x117 28 ready).phase ∧
      ¬ stepCount (.start 1 true) ≤ (at' 0x117 27 ready).phase := by decide

theorem witness_StepKeepsInvariant : Inv (pushing 14) ∧ ∃ t, step (pushing 14) = .next t :=
  ⟨inv_pushing 14 (by decide) (by decide), _, rfl⟩

theorem witness_StepKeepsPushProgress : Inv pushed ∧ PushProgress pushed ∧ ∃ t, step pushed = .next t :=
  ⟨inv_pushed, pushAt_pushed, _, rfl⟩

end Sys2Proof.Tests
end

section
/-! A pin write line by line (R9, R145): the levels on the pins, the one edge a pin write can make, and what the
external register makes of it. -/

namespace Sys2Proof.Machine

/-! ### The levels on the register pins -/

@[simp] theorem Drive.level_eq_l {d : Drive} : d.level = .l ↔ d = .l := by cases d <;> simp [Drive.level]

@[simp] theorem Drive.level_eq_h {d : Drive} : d.level = .h ↔ d = .h := by cases d <;> simp [Drive.level]

theorem State.pinLevel_of_unbound {s : State} (hs : s.regBound = false) (p : Pin) : s.pinLevel p = .z := by
  simp [State.pinLevel, hs]

theorem State.pinLevel_of_bound {s : State} (hs : s.regBound = true) (p : Pin) :
    s.pinLevel p = (s.lvl p).level := by
  simp [State.pinLevel, hs]

@[simp] theorem State.setLvl_regBound (s : State) (p : Pin) (lvl : Drive) :
    (s.setLvl p lvl).regBound = s.regBound := by
  cases p <;> rfl

/-- `setLvl` sets the level element of the line it names and of no other (R29). -/
theorem State.lvl_setLvl (s : State) (p q : Pin) (lvl : Drive) :
    (s.setLvl p lvl).lvl q = if q = p then lvl else s.lvl q := by
  cases p <;> cases q <;> rfl

/-- Setting one line's level leaves the level on every other pin. -/
theorem State.pinLevel_setLvl_of_ne (s : State) {p q : Pin} (lvl : Drive) (hq : q ≠ p) :
    (s.setLvl p lvl).pinLevel q = s.pinLevel q := by
  simp only [State.pinLevel, State.setLvl_regBound, State.lvl_setLvl, if_neg hq]

/-! ### Edges -/

theorem rises_iff {s t : State} {p : Pin} : rises s t p = true ↔ s.pinLevel p = .l ∧ t.pinLevel p = .h := by
  simp [rises]

/-- A pin that the block does not drive has no edge (R145). -/
theorem rises_of_unbound {s : State} (hs : s.regBound = false) (t : State) (p : Pin) : rises s t p = false := by
  simp [rises, State.pinLevel_of_unbound hs]

/-- A line that keeps its level has no edge. -/
theorem rises_of_pinLevel_eq {s t : State} {p : Pin} (h : t.pinLevel p = s.pinLevel p) : rises s t p = false := by
  rw [← Bool.not_eq_true, rises_iff, h]
  rintro ⟨hl, hh⟩
  exact absurd (hl.symm.trans hh) (by decide)

/-- On bound lines the line a pin write names rises exactly when it was L and is written H. -/
theorem rises_setLvl_same {s : State} (hs : s.regBound = true) (p : Pin) (lvl : Drive) :
    rises s (s.setLvl p lvl) p = true ↔ s.lvl p = .l ∧ lvl = .h := by
  have ht : (s.setLvl p lvl).regBound = true := by rw [State.setLvl_regBound, hs]
  simp [rises_iff, State.pinLevel_of_bound hs, State.pinLevel_of_bound ht, State.lvl_setLvl]

/-! ### The external register -/

@[simp] theorem getLsbD_shiftIn_zero (chain : Byte) (b : Bool) : (shiftIn chain b).getLsbD 0 = b := by
  rw [shiftIn, BitVec.getLsbD_append]
  simp

@[simp] theorem getLsbD_shiftIn_succ (chain : Byte) (b : Bool) (i : Nat) :
    (shiftIn chain b).getLsbD (i + 1) = (decide (i < 7) && chain.getLsbD i) := by
  rw [shiftIn, BitVec.getLsbD_append]
  simp

/-- `srChain[6:0] ++ b` is the chain shifted toward bit 7, with `b` in bit 0 (R145). -/
theorem shiftIn_eq (chain : Byte) (b : Bool) : shiftIn chain b = (chain <<< 1) ||| (if b then 1 else 0) := by
  refine BitVec.eq_of_getLsbD_eq fun i _ => ?_
  cases i with
  | zero =>
    rw [getLsbD_shiftIn_zero]
    cases b <;> simp
  | succ i =>
    have hlt : i + 1 < 8 ↔ i < 7 := Nat.succ_lt_succ_iff
    rw [getLsbD_shiftIn_succ]
    cases b <;> simp [hlt]

theorem nextChain_of_no_edge {s t : State} (h : rises s t .srclk = false) : nextChain s t = s.srChain := by
  simp [nextChain, h]

theorem nextStore_of_no_edge {s t : State} (h : rises s t .rclk = false) : nextStore s t = s.srStore := by
  simp [nextStore, h]

/-- On bound lines an SRCLK write from L to H shifts the level on SER into the chain (R145). -/
theorem nextChain_setLvl_srclk {s : State} (hs : s.regBound = true) (lvl : Drive) :
    nextChain s (s.setLvl .srclk lvl) = if s.clkLvl = .l ∧ lvl = .h then
      (s.srChain <<< 1) ||| (if s.serLvl = .h then 1 else 0) else s.srChain := by
  have hser : ((s.setLvl .srclk lvl).pinLevel .ser = .h) ↔ s.serLvl = .h := by
    rw [s.pinLevel_setLvl_of_ne lvl (by decide), State.pinLevel_of_bound hs, Drive.level_eq_h]
    rfl
  simp only [nextChain, rises_setLvl_same hs, shiftIn_eq, hser, decide_eq_true_eq]
  rfl

/-- On bound lines an RCLK write from L to H copies the chain to the storage register (R145). -/
theorem nextStore_setLvl_rclk {s : State} (hs : s.regBound = true) (lvl : Drive) :
    nextStore s (s.setLvl .rclk lvl) = if s.latLvl = .l ∧ lvl = .h then s.srChain else s.srStore := by
  simp only [nextStore, rises_setLvl_same hs]
  rfl

/-- A write to a line other than SRCLK leaves the chain. -/
theorem nextChain_setLvl_of_ne (s : State) {p : Pin} (lvl : Drive) (hp : .srclk ≠ p) :
    nextChain s (s.setLvl p lvl) = s.srChain :=
  nextChain_of_no_edge (rises_of_pinLevel_eq (s.pinLevel_setLvl_of_ne lvl hp))

/-- A write to a line other than RCLK leaves the storage register. -/
theorem nextStore_setLvl_of_ne (s : State) {p : Pin} (lvl : Drive) (hp : .rclk ≠ p) :
    nextStore s (s.setLvl p lvl) = s.srStore :=
  nextStore_of_no_edge (rises_of_pinLevel_eq (s.pinLevel_setLvl_of_ne lvl hp))

/-! ### The pin write, line by line -/

/-- On unbound lines the external register sees nothing of a pin write (R9, R145). -/
theorem State.pinWrite_of_unbound {s : State} (hs : s.regBound = false) (p : Pin) (lvl : Drive) :
    s.pinWrite p lvl = { s.setLvl p lvl with trace := s.trace ++ [Event.pin p lvl] } := by
  rw [State.pinWrite, nextChain_of_no_edge (rises_of_unbound hs _ _), nextStore_of_no_edge (rises_of_unbound hs _ _)]
  cases p <;> rfl

/-- SER is no clock: a write to it changes its level and the trace only. -/
theorem State.pinWrite_ser (s : State) (lvl : Drive) :
    s.pinWrite .ser lvl = { s with serLvl := lvl, trace := s.trace ++ [Event.pin .ser lvl] } := by
  rw [State.pinWrite, nextChain_setLvl_of_ne s lvl (by decide), nextStore_setLvl_of_ne s lvl (by decide)]
  rfl

theorem State.pinWrite_srclk {s : State} (hs : s.regBound = true) (lvl : Drive) :
    s.pinWrite .srclk lvl = { s with
      clkLvl := lvl, trace := s.trace ++ [Event.pin .srclk lvl],
      srChain := if s.clkLvl = .l ∧ lvl = .h then
        (s.srChain <<< 1) ||| (if s.serLvl = .h then 1 else 0) else s.srChain } := by
  rw [State.pinWrite, nextChain_setLvl_srclk hs, nextStore_setLvl_of_ne s lvl (by decide)]
  rfl

theorem State.pinWrite_rclk {s : State} (hs : s.regBound = true) (lvl : Drive) :
    s.pinWrite .rclk lvl = { s with
      latLvl := lvl, trace := s.trace ++ [Event.pin .rclk lvl],
      srStore := if s.latLvl = .l ∧ lvl = .h then s.srChain else s.srStore } := by
  rw [State.pinWrite, nextStore_setLvl_rclk hs, nextChain_setLvl_of_ne s lvl (by decide)]
  rfl

/-- Settles O31: no edge on unbound lines; on bound lines each line by its own lemma. -/
theorem pinWriteEffect : Obligations.PinWriteEffect := by
  unfold Obligations.PinWriteEffect
  exact ⟨fun _ p lvl hs => State.pinWrite_of_unbound hs p lvl,
    fun s lvl hs => ⟨s.pinWrite_ser lvl, State.pinWrite_srclk hs lvl, State.pinWrite_rclk hs lvl⟩⟩

end Sys2Proof.Machine
end

section
/-! What the shared operations leave of each field, read off the frame lemmas of the bus, the push and the drive step,
and from them what a whole command step leaves (R27, R31, R33). -/

namespace Sys2Proof.Machine

open Sys2Proof.Safety

/-! ### The bus (R64 to R66) -/

@[simp] theorem State.serveBus_slots (s : State) : s.serveBus.slots = s.slots := by
  rw [s.serveBus_frame]

@[simp] theorem State.serveBus_chans (s : State) : s.serveBus.chans = s.chans := by
  rw [s.serveBus_frame]

@[simp] theorem State.serveBus_dirByte (s : State) : s.serveBus.dirByte = s.dirByte := by
  rw [s.serveBus_frame]

@[simp] theorem State.serveBus_regBound (s : State) : s.serveBus.regBound = s.regBound := by
  rw [s.serveBus_frame]

@[simp] theorem State.serveBus_servoBound (s : State) : s.serveBus.servoBound = s.servoBound := by
  rw [s.serveBus_frame]

@[simp] theorem State.serveBus_servoActive (s : State) : s.serveBus.servoActive = s.servoActive := by
  rw [s.serveBus_frame]

@[simp] theorem State.serveBus_servoAngle (s : State) : s.serveBus.servoAngle = s.servoAngle := by
  rw [s.serveBus_frame]

@[simp] theorem State.serveBus_err (s : State) : s.serveBus.err = s.err := by
  rw [s.serveBus_frame]

@[simp] theorem State.serveBus_time (s : State) : s.serveBus.time = s.time := by
  rw [s.serveBus_frame]

@[simp] theorem State.serveBus_cal (s : State) : s.serveBus.cal = s.cal := by
  rw [s.serveBus_frame]

@[simp] theorem State.serveBus_acqGrant (s : State) : s.serveBus.acqGrant = s.acqGrant := by
  rw [s.serveBus_frame]

@[simp] theorem State.serveBus_acqReq (s : State) : s.serveBus.acqReq = s.acqReq := by
  rw [s.serveBus_frame]

@[simp] theorem State.serveBus_clkIn (s : State) : s.serveBus.clkIn = s.clkIn := by
  rw [s.serveBus_frame]

@[simp] theorem State.serveBus_cycle (s : State) : s.serveBus.cycle = s.cycle := by
  rw [s.serveBus_frame]

/-! ### The push (R142) -/

@[simp] theorem State.pushWrite_slots (s : State) (j : Nat) : (s.pushWrite j).slots = s.slots := by
  rw [s.pushWrite_frame j]

@[simp] theorem State.pushWrite_chans (s : State) (j : Nat) : (s.pushWrite j).chans = s.chans := by
  rw [s.pushWrite_frame j]

@[simp] theorem State.pushWrite_dirByte (s : State) (j : Nat) : (s.pushWrite j).dirByte = s.dirByte := by
  rw [s.pushWrite_frame j]

@[simp] theorem State.pushWrite_regBound (s : State) (j : Nat) : (s.pushWrite j).regBound = s.regBound := by
  rw [s.pushWrite_frame j]

@[simp] theorem State.pushWrite_servoBound (s : State) (j : Nat) : (s.pushWrite j).servoBound = s.servoBound := by
  rw [s.pushWrite_frame j]

@[simp] theorem State.pushWrite_servoActive (s : State) (j : Nat) : (s.pushWrite j).servoActive = s.servoActive := by
  rw [s.pushWrite_frame j]

@[simp] theorem State.pushWrite_servoAngle (s : State) (j : Nat) : (s.pushWrite j).servoAngle = s.servoAngle := by
  rw [s.pushWrite_frame j]

@[simp] theorem State.pushWrite_period (s : State) (j : Nat) : (s.pushWrite j).period = s.period := by
  rw [s.pushWrite_frame j]

@[simp] theorem State.pushWrite_width (s : State) (j : Nat) : (s.pushWrite j).width = s.width := by
  rw [s.pushWrite_frame j]

@[simp] theorem State.pushWrite_err (s : State) (j : Nat) : (s.pushWrite j).err = s.err := by
  rw [s.pushWrite_frame j]

@[simp] theorem State.pushWrite_result (s : State) (j : Nat) : (s.pushWrite j).result = s.result := by
  rw [s.pushWrite_frame j]

@[simp] theorem State.pushWrite_seq (s : State) (j : Nat) : (s.pushWrite j).seq = s.seq := by
  rw [s.pushWrite_frame j]

@[simp] theorem State.pushWrite_time (s : State) (j : Nat) : (s.pushWrite j).time = s.time := by
  rw [s.pushWrite_frame j]

@[simp] theorem State.pushWrite_cal (s : State) (j : Nat) : (s.pushWrite j).cal = s.cal := by
  rw [s.pushWrite_frame j]

@[simp] theorem State.pushWrite_acqReq (s : State) (j : Nat) : (s.pushWrite j).acqReq = s.acqReq := by
  rw [s.pushWrite_frame j]

@[simp] theorem State.pushWrite_host (s : State) (j : Nat) : (s.pushWrite j).host = s.host := by
  rw [s.pushWrite_frame j]

/-! ### The drive step (R174, R175) -/

/-- A drive step writes slot and channel records only. -/
theorem driveOf_frame (i : Instr) (s : State) :
    driveOf i s = { s with slots := (driveOf i s).slots, chans := (driveOf i s).chans } := by
  cases i with
  | start slot flg =>
    simp only [driveOf, startDrive]
    cases SlotId.ofField slot with
    | none => rfl
    | some id => cases flg <;> rfl
  | stop slot =>
    simp only [driveOf, stopDrive]
    cases SlotId.ofField slot <;> rfl
  | _ => rfl

/-! ### A whole command step -/

/-- The ways a command can answer a next state, each with what its checks established: `exec_next` with `step0_case`. -/
theorem exec_next_case {i : Instr} {s t : State} (h : exec i s = .next t) :
    (∃ z, s.phase = 0 ∧ Step0Case s i z ∧ t = z.close i) ∨
    (∃ j, s.phase = j + 1 ∧ j + 2 < stepCount i ∧ t = (s.pushWrite j).advance i) ∨
    (stepCount i = 27 ∧ s.phase = 26 ∧ t = (s.pushWrite 25).finish false) ∨
    (stepCount i = 28 ∧ s.phase = 27 ∧ t = (driveOf i s).finish false) :=
  (exec_next.1 h).imp_left fun ⟨hp, ht⟩ => ⟨step0 i s, hp, step0_case i s, ht⟩

/-- No step of a command writes an operand register, a parameter, the host's queue or the time (R31, R200, R238). -/
theorem exec_inputs {i : Instr} {s t : State} (h : exec i s = .next t) :
    t.period = s.period ∧ t.width = s.width ∧ t.cal = s.cal ∧ t.host = s.host ∧ t.time = s.time := by
  obtain ⟨z, -, hc, rfl⟩ | ⟨j, -, -, rfl⟩ | ⟨-, -, rfl⟩ | ⟨-, -, rfl⟩ := exec_next_case h
  · cases hc <;> exact ⟨rfl, rfl, rfl, rfl, rfl⟩
  · simp
  · simp
  · rw [driveOf_frame]
    exact ⟨rfl, rfl, rfl, rfl, rfl⟩

/-- RESULT is written by GET_MOTOR alone (R33). -/
theorem exec_result {i : Instr} {s t : State} (h : exec i s = .next t) (hi : ∀ slot, i ≠ .getMotor slot) :
    t.result = s.result := by
  obtain ⟨z, -, hc, rfl⟩ | ⟨j, -, -, rfl⟩ | ⟨-, -, rfl⟩ | ⟨-, -, rfl⟩ := exec_next_case h
  · cases hc with
    | occupant id => exact absurd rfl (hi id.num)
    | _ => rfl
  · simp
  · simp
  · rw [driveOf_frame]
    rfl

/-- The direction byte is written by the commands that turn a slot alone (R27). -/
theorem exec_dirByte {i : Instr} {s t : State} (h : exec i s = .next t) (hi : turnsSlot i = false) :
    t.dirByte = s.dirByte := by
  obtain ⟨z, -, hc, rfl⟩ | ⟨j, -, -, rfl⟩ | ⟨-, -, rfl⟩ | ⟨-, -, rfl⟩ := exec_next_case h
  · cases hc with
    | bound | detached | turn | flip => exact Bool.noConfusion hi
    | _ => rfl
  · simp
  · simp
  · rw [driveOf_frame]
    rfl

/-- Only an acquiring command can raise SETUP (R15, R230). -/
theorem acquires_of_setup_mem {i : Instr} (h : Err.setup ∈ errorsOf i) : acquires i = true := by
  cases i with
  | bindRegLines | bindServoLine => rfl
  | setMotor slot dir flg | start slot flg => cases flg <;> simp [errorsOf, acquires] at h ⊢
  | _ => simp [errorsOf] at h

/-- `acq_req` rises in step 0 of an acquiring command only (R15). -/
theorem exec_acqReq {i : Instr} {s t : State} (h : exec i s = .next t) (hs : s.acqReq = false)
    (ht : t.acqReq = true) : s.phase = 0 ∧ acquires i = true := by
  obtain ⟨z, hp, hc, rfl⟩ | ⟨j, -, -, rfl⟩ | ⟨-, -, rfl⟩ | ⟨-, -, rfl⟩ := exec_next_case h
  · refine ⟨hp, ?_⟩
    cases hc with
    | refused i hg hm => exact acquires_of_setup_mem hm
    | bound | lines | servoLine => rfl
    | _ => exact Bool.noConfusion (hs.symm.trans ht)
  · simp [hs] at ht
  · simp [hs] at ht
  · rw [driveOf_frame] at ht
    exact Bool.noConfusion (hs.symm.trans ht)

/-- Settles O54: what a command step leaves, register by register. -/
theorem registersHaveOneWriter : Obligations.RegistersHaveOneWriter := by
  unfold Obligations.RegistersHaveOneWriter
  intro i s t h
  obtain ⟨hp, hw, hcal, hhost, htime⟩ := exec_inputs h
  exact ⟨hp, hw, hcal, hhost, htime, exec_result h, exec_dirByte h⟩

end Sys2Proof.Machine
end

section
/-! The output ports case by case (R35), and the shape of a clock step without a reset (R65, R100, R238; logs 2, 3). -/

namespace Sys2Proof.Machine

open Sys2Proof.Safety

/-! ### The output ports (R35) -/

theorem State.outLevel_of_no_line {s : State} {id : SlotId} (h : (s.slots.get id).line = false) :
    s.outLevel id = .z := by
  simp [State.outLevel, h]

/-- With a line, OUTn follows the run status. -/
theorem State.outLevel_of_line {s : State} {id : SlotId} (h : (s.slots.get id).line = true) :
    ((s.slots.get id).run = .idle → s.outLevel id = .l) ∧ ((s.slots.get id).run = .running → s.outLevel id = .h) ∧
      ((s.slots.get id).run = .pwm → s.outLevel id = wave (s.chans.get id.chan) s.time) := by
  refine ⟨fun hr => ?_, fun hr => ?_, fun hr => ?_⟩ <;> simp [State.outLevel, h, hr]

theorem State.servoLevel_of_unbound {s : State} (h : s.servoBound = false) : s.servoLevel = .z := by
  simp [State.servoLevel, h]

theorem State.servoLevel_of_inactive {s : State} (hb : s.servoBound = true) (ha : s.servoActive = false) :
    s.servoLevel = .l := by
  simp [State.servoLevel, hb, ha]

theorem State.servoLevel_of_active {s : State} (hb : s.servoBound = true) (ha : s.servoActive = true) :
    s.servoLevel = wave s.chans.c5 s.time := by
  simp [State.servoLevel, hb, ha]

/-- Settles O44: the register pins, the motor lines and the servo line, each by its cases. -/
theorem outputPortLevels : Obligations.OutputPortLevels := by
  unfold Obligations.OutputPortLevels
  intro s
  refine ⟨fun p hb => State.pinLevel_of_unbound hb p, fun hb => ?_, fun _ => State.outLevel_of_no_line,
    fun _ => State.outLevel_of_line, State.servoLevel_of_unbound, State.servoLevel_of_inactive,
    State.servoLevel_of_active⟩
  exact ⟨State.pinLevel_of_bound hb .ser, State.pinLevel_of_bound hb .srclk, State.pinLevel_of_bound hb .rclk⟩

/-! ### A clock step without a reset -/

theorem State.inputs_of_scheduled {s : State} {x : ClkIn} {more : List ClkIn} (h : s.clkIn = x :: more) :
    s.inputs = x := by
  simp only [State.inputs, h]

/-- The tick as a case split (R238). -/
theorem State.beginClock_time_eq_ite (s : State) :
    s.beginClock.time = if s.inputs.tick = true then s.time + 1 else s.time := by
  rw [State.beginClock_time]
  split <;> rfl

theorem State.serveBus_of_no_access {s : State} (h : s.host = []) : s.serveBus = s := by
  simp only [State.serveBus, h]

theorem State.serveBus_of_idle_access {s : State} {rest : List Access} (h : s.host = .idle :: rest) :
    s.serveBus = { s with host := rest } := by
  simp only [State.serveBus, h]

/-- A CMD write that the bus accepts puts its command at step 0 (R65). -/
theorem State.serveBus_of_offered {s : State} {w : Word} {rest : List Access} (h : Offered s w rest) :
    s.serveBus = { s with host := rest, seq := .exec w 0 } := by
  obtain ⟨hidle, hhost⟩ := h
  have hb : s.busy = false := by simp [State.busy, hidle]
  rw [State.serveBus_write hhost hb]
  rfl

/-- A CMD write is no access that the bus refuses (R62). -/
theorem State.busRefusal_of_offered {s : State} {w : Word} {rest : List Access} (h : Offered s w rest) :
    s.busRefusal = none := by
  obtain ⟨-, hhost⟩ := h
  simp [State.busRefusal, hhost, badAccess]

/-- Without a reset and a refusal, the command that the bus leaves in the sequencer runs its step (R100). -/
theorem step_of_exec {s : State} {c : Word} {k : Nat} (hr : s.inputs.rst = false) (hb : s.busRefusal = none)
    (hs : s.beginClock.serveBus.seq = .exec c k) : step s = exec (decodeWord c) s.beginClock.serveBus := by
  simp [step, hb, hr, hs]

/-- Without a reset and a refusal, a block that the bus leaves Idle does nothing else. -/
theorem step_of_idle {s : State} (hr : s.inputs.rst = false) (hb : s.busRefusal = none)
    (hs : s.beginClock.serveBus.seq = .idle) : step s = .next s.beginClock.serveBus := by
  simp [step, hb, hr, hs]

/-- What the clock itself changes holds after the whole clock step, and `acq_req` has a cause (R15, R238). -/
theorem step_clock {s t : State} (hr : s.inputs.rst = false) (h : step s = .next t) :
    t.time = s.beginClock.time ∧ t.acqGrant = s.inputs.grant ∧ t.clkIn = s.clkIn.tail ∧ t.cycle = s.cycle + 1 ∧
      (t.acqReq = true → ∃ c, s.beginClock.serveBus.seq = .exec c 0 ∧ acquires (decodeWord c) = true) := by
  obtain ⟨hrst, -⟩ | ⟨-, -, -, rfl⟩ | ⟨-, -, c, k, hs, ht⟩ := step_next h
  · exact Bool.noConfusion (hr.symm.trans hrst)
  · refine ⟨by simp, by simp, by simp, by simp, fun hq => ?_⟩
    simp at hq
  · obtain ⟨-, -, -, -, htime⟩ := exec_inputs ht
    obtain ⟨-, hclk, hcyc, hgrant⟩ := exec_ports ht
    refine ⟨by simp [htime], by simp [hgrant], by simp [hclk], by simp [hcyc], fun hq => ?_⟩
    obtain ⟨hp, ha⟩ := exec_acqReq ht (by simp) hq
    rw [State.phase_of_exec hs] at hp
    exact ⟨c, hp ▸ hs, ha⟩

/-- Settles O7: the clock, the bus, then the decoded command's step. -/
theorem stepRunsDecodedCommand : Obligations.StepRunsDecodedCommand := by
  unfold Obligations.StepRunsDecodedCommand
  intro s w rest c k hr
  refine ⟨fun _ _ => State.inputs_of_scheduled, ?_, fun h => State.serveBus_of_no_access h,
    fun h => State.serveBus_of_idle_access h, fun t h => ?_, fun h => ?_, fun hs hb => ?_,
    fun _ hb hs => step_of_idle hr hb hs⟩
  · rw [← s.beginClock_time_eq_ite]
    rfl
  · rw [← s.beginClock_time_eq_ite]
    exact step_clock hr h
  · have hbus : s.beginClock.serveBus = { s.beginClock with host := rest, seq := .exec w 0 } :=
      State.serveBus_of_offered h
    rw [step_of_exec (c := w) (k := 0) hr (State.busRefusal_of_offered h) (by rw [hbus]), hbus]
  · have hseq := serveBus_seq_of_exec hs
    exact ⟨step_of_exec hr hb hseq, hseq⟩

end Sys2Proof.Machine
end

section
/-! Every step keeps the invariant (R22, R27, R170, R200, R230, R34). The invariant falls into the motor records, the
servo, the result code and the sequencer; each part has its own lemma over the clock and bus, and over a command step. -/

namespace Sys2Proof.Machine

theorem Channels.set_get (b : Channels) (n : ChanId) : b.set n (b.get n) = b := by
  cases n <;> rfl

/-- The result codes end at 7 (R230). -/
theorem Err.code_le (e : Err) : e.code.toNat ≤ 7 := by
  cases e <;> decide

/-- A drive step leaves the servo's channel (R179, R205). -/
theorem driveOf_c5 (i : Instr) (s : State) : (driveOf i s).chans.c5 = s.chans.c5 := by
  cases i with
  | start slot flg =>
    simp only [driveOf, startDrive]
    cases SlotId.ofField slot with
    | none => rfl
    | some id => cases flg <;> exact s.chans.c5_set_chan id _
  | stop slot =>
    simp only [driveOf, stopDrive]
    cases SlotId.ofField slot <;> rfl
  | _ => rfl

end Sys2Proof.Machine

namespace Sys2Proof.Safety

open Sys2Proof.Machine

/-! ### The parts of the invariant -/

/-- The slot records, their channels and the direction byte. -/
structure MotorsOk (s : State) : Prop where
  slots : ∀ id, SlotOk (s.slots.get id)
  chans : ∀ id, ChanOk (s.slots.get id).run (s.chans.get id.chan) s.time
  dirByte : s.dirByte = encodeDirs s.slots

/-- The angle, the end points and the active servo's channel. -/
structure ServoStateOk (s : State) : Prop where
  angle : s.servoAngle.toNat ≤ 180
  cal : s.cal.ok = true
  servo : s.servoActive = true → ServoOk s

theorem inv_iff {s : State} : Inv s ↔ MotorsOk s ∧ ServoStateOk s ∧ s.err.toNat ≤ 7 ∧ SeqOk s :=
  ⟨fun h => ⟨⟨h.slots, h.chans, h.dirByte⟩, ⟨h.angle, h.cal, h.servo⟩, h.err, h.seq⟩,
    fun ⟨hm, hv, he, hq⟩ => ⟨hm.slots, hm.chans, hm.dirByte, he, hv.angle, hv.cal, hv.servo, hq⟩⟩

theorem seqOk_of_idle {s : State} (h : s.seq = .idle) : SeqOk s := by
  simp [SeqOk, h]

theorem seqOk_iff_of_exec {s : State} {c : Word} {k : Nat} (h : s.seq = .exec c k) :
    SeqOk s ↔ 1 ≤ k ∧ k < stepCount (decodeWord c) ∧ s.regBound = true ∧ Ready s (decodeWord c) := by
  simp only [SeqOk, h]

/-- What step 0 established depends on the slots and the operand registers only. -/
theorem Ready.congr {s t : State} {i : Instr} (h : Ready s i) (hs : t.slots = s.slots) (hp : t.period = s.period)
    (hw : t.width = s.width) : Ready t i := by
  cases i with
  | start slot flg => simpa only [Ready, State.occupied, hs, hp, hw] using h
  | stop slot => simpa only [Ready, State.occupied, hs] using h
  | _ => trivial

/-! ### Slot and channel records -/

theorem slotOk_empty : SlotOk Slot.empty := by
  constructor <;> simp [Slot.empty]

/-- A motor fresh from SET_MOTOR (R114). -/
theorem slotOk_fresh (d : Dir) (line : Bool) : SlotOk { occ := true, dir := d, run := .idle, line := line } := by
  constructor <;> simp

/-- Turning a motor keeps its record well-formed (R22, R116). -/
theorem SlotOk.turn {v : Slot} (h : SlotOk v) (ho : v.occ = true) (d : Dir) : SlotOk { v with dir := d } where
  line_occ := h.line_occ
  run_line := h.run_line
  empty_dir he := Bool.noConfusion (ho.symm.trans he)
  empty_run := h.empty_run
  empty_line := h.empty_line

/-- A motor with a line may have any run status (R22). -/
theorem SlotOk.withRun {v : Slot} (h : SlotOk v) (hl : v.line = true) (r : Run) : SlotOk { v with run := r } where
  line_occ := h.line_occ
  run_line _ := hl
  empty_dir := h.empty_dir
  empty_run he := Bool.noConfusion ((h.line_occ hl).symm.trans he)
  empty_line := h.empty_line

/-- An Idle slot asks nothing of its channel. -/
theorem chanOk_idle (ch : Channel) (n : Nat) : ChanOk .idle ch n := by
  constructor <;> exact fun h => Run.noConfusion h

/-- A full-on slot with a cleared channel (R174). -/
theorem chanOk_running (o n : Nat) : ChanOk .running { period := 0, width := 0, origin := o } n := by
  constructor <;> simp

/-- A PWM slot whose waveform starts now (R173, R174). -/
theorem chanOk_pwm {p w : Word} (h : validPwm p w = true) (n : Nat) :
    ChanOk .pwm { period := p, width := w, origin := n } n where
  pwm_valid _ := h
  pwm_origin _ := le_rfl
  full_on hr := Run.noConfusion hr

theorem ChanOk.mono {r : Run} {ch : Channel} {m n : Nat} (h : ChanOk r ch m) (hmn : m ≤ n) : ChanOk r ch n where
  pwm_valid := h.pwm_valid
  pwm_origin hr := (h.pwm_origin hr).trans hmn
  full_on := h.full_on

/-! ### What keeps a part -/

/-- The motor records hold while they are not written, as time passes. -/
theorem MotorsOk.of_unchanged {s t : State} (h : MotorsOk s) (hs : t.slots = s.slots)
    (hc : ∀ id : SlotId, t.chans.get id.chan = s.chans.get id.chan) (hd : t.dirByte = s.dirByte)
    (ht : s.time ≤ t.time) : MotorsOk t where
  slots id := by rw [hs]; exact h.slots id
  chans id := by rw [hs, hc]; exact (h.chans id).mono ht
  dirByte := by rw [hs, hd]; exact h.dirByte

/-- One slot and its channel written, the others as they were. -/
theorem MotorsOk.of_set {s t : State} {id : SlotId} {v : Slot} {ch : Channel} (h : MotorsOk s)
    (hs : t.slots = s.slots.set id v) (hc : t.chans = s.chans.set id.chan ch) (hd : t.dirByte = encodeDirs t.slots)
    (ht : t.time = s.time) (hv : SlotOk v) (hch : ChanOk v.run ch s.time) : MotorsOk t where
  slots j := by
    rw [hs, Slots.get_set]
    split
    · exact hv
    · exact h.slots j
  chans j := by
    rw [hs, hc, ht]
    by_cases hj : j = id
    · subst hj
      rwa [Slots.get_set_same, Channels.get_set_same]
    · rw [Slots.get_set_ne _ _ hj, Channels.get_set_ne _ _ (mt SlotId.chan_inj.1 hj)]
      exact h.chans j
  dirByte := hd

/-- The servo's state holds while it is not written, as time passes. -/
theorem ServoStateOk.of_unchanged {s t : State} (h : ServoStateOk s) (ha : t.servoAngle = s.servoAngle)
    (hcal : t.cal = s.cal) (hact : t.servoActive = s.servoActive) (hb : t.servoBound = s.servoBound)
    (hc : t.chans.c5 = s.chans.c5) (ht : s.time ≤ t.time) : ServoStateOk t where
  angle := by rw [ha]; exact h.angle
  cal := by rw [hcal]; exact h.cal
  servo hon := by
    have hv := h.servo (hact.symm.trans hon)
    constructor
    · rw [hb]; exact hv.bound
    · rw [hc]; exact hv.period
    · rw [hc, hcal, ha]; exact hv.width
    · rw [hc]; exact hv.origin.trans ht

/-! ### The clock and the bus -/

theorem MotorsOk.clockBus {s : State} (h : MotorsOk s) : MotorsOk s.beginClock.serveBus :=
  h.of_unchanged (by simp) (by simp) (by simp) (by simp)

theorem ServoStateOk.clockBus {s : State} (h : ServoStateOk s) : ServoStateOk s.beginClock.serveBus :=
  h.of_unchanged (by simp) (by simp) (by simp) (by simp) (by simp) (by simp)

/-- The bus accepts a command at its step 0, or leaves a well-kept sequencer (R65, R66). -/
theorem SeqOk.clockBus {s : State} (h : SeqOk s) :
    (∃ c, s.beginClock.serveBus.seq = .exec c 0) ∨ SeqOk s.beginClock.serveBus := by
  cases hs : s.seq with
  | idle =>
    obtain hi | ⟨w, hw, -, -⟩ := State.serveBus_idle (s := s.beginClock) hs
    · exact .inr (seqOk_of_idle hi)
    · exact .inl ⟨w, hw⟩
  | exec c k =>
    obtain ⟨h1, hlt, hb, hr⟩ := (seqOk_iff_of_exec hs).1 h
    obtain ⟨-, hp, hw⟩ := State.serveBus_busy (s := s.beginClock) (State.busy_of_exec hs)
    exact .inr ((seqOk_iff_of_exec (serveBus_seq_of_exec hs)).2
      ⟨h1, hlt, by simpa using hb, hr.congr (by simp) hp hw⟩)

/-! ### The drive steps -/

/-- A drive step of a command whose step 0 checked its line keeps the motor records (R174, R175). -/
theorem MotorsOk.drive {s : State} {i : Instr} (h : MotorsOk s) (hr : Ready s i) : MotorsOk (driveOf i s) := by
  cases i with
  | start slot flg =>
    obtain ⟨id, hid, hl, hv⟩ := hr
    obtain ⟨rfl, -⟩ := State.occupied_eq_some.1 hid
    have henc (r : Run) := (encodeDirs_set_same s.slots id { s.slots.get id with run := r } rfl rfl).symm
    cases flg with
    | true =>
      simp only [driveOf, startDrive, SlotId.ofField_num, if_true]
      exact h.of_set rfl rfl (h.dirByte.trans (henc _)) rfl ((h.slots id).withRun hl _) (chanOk_running _ _)
    | false =>
      simp only [driveOf, startDrive, SlotId.ofField_num, Bool.false_eq_true, if_false]
      exact h.of_set rfl rfl (h.dirByte.trans (henc _)) rfl ((h.slots id).withRun hl _) (chanOk_pwm (hv rfl) _)
  | stop slot =>
    obtain ⟨id, hid, hl⟩ := hr
    obtain ⟨rfl, -⟩ := State.occupied_eq_some.1 hid
    have henc := (encodeDirs_set_same s.slots id { s.slots.get id with run := .idle } rfl rfl).symm
    simp only [driveOf, stopDrive, SlotId.ofField_num]
    exact h.of_set rfl (s.chans.set_get id.chan).symm (h.dirByte.trans henc) rfl ((h.slots id).withRun hl _)
      (chanOk_idle _ _)
  | _ => exact h

/-! ### A command step -/

/-- A command step keeps the motor records; past step 0 it relies on what step 0 established. -/
theorem exec_motorsOk {i : Instr} {s t : State} (h : exec i s = .next t) (hm : MotorsOk s)
    (hr : s.phase ≠ 0 → Ready s i) : MotorsOk t := by
  obtain ⟨z, -, hc, rfl⟩ | ⟨j, -, -, rfl⟩ | ⟨-, -, rfl⟩ | ⟨-, hp, rfl⟩ := exec_next_case h
  · cases hc with
    | bound id d | detached id d => exact hm.of_set rfl rfl rfl rfl (slotOk_fresh d _) (chanOk_idle _ _)
    | turn id d ho | flip id ho =>
      exact hm.of_set rfl (s.chans.set_get id.chan).symm rfl rfl ((hm.slots id).turn ho _) (hm.chans id)
    | angle => exact hm.of_unchanged rfl (s.chans.get_set_c5 · _) rfl le_rfl
    | _ => exact hm.of_unchanged rfl (fun _ => rfl) rfl le_rfl
  · exact hm.of_unchanged (by simp) (by simp) (by simp) (by simp)
  · exact hm.of_unchanged (by simp) (by simp) (by simp) (by simp)
  · exact (hm.drive (hr (by omega))).of_unchanged rfl (fun _ => rfl) rfl le_rfl

/-- SET_ANGLE's channel is the accepted angle's (R204). -/
theorem servoStateOk_driveServo {s : State} {a : Byte} (h : ServoStateOk s) (ha : angleOutOfRange a = false)
    (hb : s.servoBound = true) : ServoStateOk (s.driveServo a) where
  angle := by
    rw [← Bool.not_eq_true, angleOutOfRange_iff] at ha
    exact Nat.le_of_not_lt ha
  cal := h.cal
  servo _ := ⟨hb, rfl, rfl, le_rfl⟩

/-- A command step keeps the servo's state. -/
theorem exec_servoStateOk {i : Instr} {s t : State} (h : exec i s = .next t) (hv : ServoStateOk s) :
    ServoStateOk t := by
  obtain ⟨z, -, hc, rfl⟩ | ⟨j, -, -, rfl⟩ | ⟨-, -, rfl⟩ | ⟨-, -, rfl⟩ := exec_next_case h
  · cases hc with
    | angle a ha hb =>
      exact (servoStateOk_driveServo hv ha hb).of_unchanged rfl rfl rfl rfl rfl le_rfl
    | servoLine => exact ⟨hv.angle, hv.cal, fun hon => Bool.noConfusion hon⟩
    | bound id | detached id =>
      exact hv.of_unchanged rfl rfl rfl rfl (s.chans.c5_set_chan id _) le_rfl
    | _ => exact hv.of_unchanged rfl rfl rfl rfl rfl le_rfl
  · exact hv.of_unchanged (by simp) (by simp) (by simp) (by simp) (by simp) (by simp)
  · exact hv.of_unchanged (by simp) (by simp) (by simp) (by simp) (by simp) (by simp)
  · have hc5 := driveOf_c5 i s
    rw [driveOf_frame]
    exact hv.of_unchanged rfl rfl rfl rfl hc5 le_rfl

/-- A command step leaves a result code of R230. -/
theorem exec_err_le {i : Instr} {s t : State} (h : exec i s = .next t) (he : s.err.toNat ≤ 7) : t.err.toNat ≤ 7 := by
  obtain ⟨z, -, hc, rfl⟩ | ⟨j, -, -, rfl⟩ | ⟨-, -, rfl⟩ | ⟨-, -, rfl⟩ := exec_next_case h
  · cases z with
    | raised e u => exact e.code_le
    | done d u => exact Nat.zero_le 7
    | push u => cases hc <;> exact he
  · simpa using he
  · exact Nat.zero_le 7
  · exact Nat.zero_le 7

/-- Step 0 of a serializing command leaves what its later steps rely on (R101, R174, R175). -/
theorem step0_push {i : Instr} {s u : State} (h : Step0Case s i (.push u)) :
    1 < stepCount i ∧ u.regBound = true ∧ u.seq = s.seq ∧ Ready u i := by
  cases h with
  | turn id d ho hb => exact ⟨(by decide : 1 < 27), hb, rfl, trivial⟩
  | flip id ho hb => exact ⟨(by decide : 1 < 27), hb, rfl, trivial⟩
  | serialize hb => exact ⟨by decide, hb, rfl, trivial⟩
  | start id flg ho hv hb hl =>
    exact ⟨(by decide : 1 < 28), hb, rfl, id, State.occupied_eq_some.2 ⟨rfl, ho⟩, hl, hv⟩
  | stop id ho hb hl => exact ⟨(by decide : 1 < 28), hb, rfl, id, State.occupied_eq_some.2 ⟨rfl, ho⟩, hl⟩

/-- A step of the command in the sequencer, at its step 0 or at one that is well-kept, leaves a well-kept sequencer. -/
theorem exec_seqOk {c : Word} {k : Nat} {s t : State} (h : exec (decodeWord c) s = .next t)
    (hs : s.seq = .exec c k) (hk : k = 0 ∨ SeqOk s) : SeqOk t := by
  have hp := State.phase_of_exec hs
  obtain ⟨z, h0, hc, rfl⟩ | ⟨j, hj, hlt, rfl⟩ | ⟨-, -, rfl⟩ | ⟨-, -, rfl⟩ := exec_next_case h
  · cases z with
    | raised e u => exact seqOk_of_idle rfl
    | done d u => exact seqOk_of_idle rfl
    | push u =>
      obtain ⟨h1, hb, hu, hr⟩ := step0_push hc
      have hseq : (u.advance (decodeWord c)).seq = .exec c 1 := by
        rw [State.advance_seq, State.word_of_exec _ (hu.trans hs), State.phase_congr hu, h0]
      exact (seqOk_iff_of_exec hseq).2 ⟨le_rfl, h1, hb, hr.congr rfl rfl rfl⟩
  · obtain ⟨-, -, hb, hr⟩ := (seqOk_iff_of_exec hs).1 (hk.resolve_left (by omega))
    have hseq : ((s.pushWrite j).advance (decodeWord c)).seq = .exec c (j + 2) := by
      have hw : (s.pushWrite j).seq = s.seq := s.pushWrite_seq j
      rw [State.advance_seq, State.word_of_exec _ (hw.trans hs), State.phase_congr hw, hj]
    exact (seqOk_iff_of_exec hseq).2
      ⟨by omega, hlt, by simpa using hb, hr.congr (by simp) (by simp) (by simp)⟩
  · exact seqOk_of_idle rfl
  · exact seqOk_of_idle rfl

/-! ### Reset -/

/-- A block whose every element has its reset value meets the invariant, whatever the channels hold (R260). -/
theorem inv_of_reset_values {s : State} (hs : ∀ id, s.slots.get id = Slot.empty) (hd : s.dirByte = 0)
    (he : s.err = 0) (ha : s.servoAngle = 0) (hcal : s.cal.ok = true) (hv : s.servoActive = false)
    (hq : s.seq = .idle) : Inv s where
  slots id := by rw [hs]; exact slotOk_empty
  chans id := by rw [hs]; exact chanOk_idle _ _
  dirByte := by
    have h1 := hs .s1
    have h2 := hs .s2
    have h3 := hs .s3
    have h4 := hs .s4
    simp only [Slots.get] at h1 h2 h3 h4
    rw [hd, encodeDirs, h1, h2, h3, h4]
    rfl
  err := by rw [he]; decide
  angle := by rw [ha]; decide
  cal := hcal
  servo hon := Bool.noConfusion (hv.symm.trans hon)
  seq := seqOk_of_idle hq

/-- Settles O58: the base case of both invariants. -/
theorem resetMeetsInvariant : Obligations.ResetMeetsInvariant := by
  unfold Obligations.ResetMeetsInvariant
  exact ⟨inv_of_reset_values (fun id => by cases id <;> rfl) rfl rfl rfl (by decide) rfl rfl, trivial⟩

/-! ### A clock step -/

/-- Settles O59: a reset by its values, the clock and the bus part by part, a command step part by part. -/
theorem stepKeepsInvariant : Obligations.StepKeepsInvariant := by
  unfold Obligations.StepKeepsInvariant
  intro s t hs h
  obtain ⟨hm, hv, he, hq⟩ := inv_iff.1 hs
  have he' : s.beginClock.serveBus.err.toNat ≤ 7 := by simpa using he
  obtain ⟨-, -, rfl⟩ | ⟨-, -, hidle, rfl⟩ | ⟨-, -, c, k, hexec, ht⟩ := step_next h
  · exact inv_of_reset_values (State.applyReset_slot _) rfl rfl rfl hv.clockBus.cal rfl rfl
  · exact inv_iff.2 ⟨hm.clockBus, hv.clockBus, he', seqOk_of_idle hidle⟩
  · have hk : k = 0 ∨ SeqOk s.beginClock.serveBus := by
      refine hq.clockBus.imp_left fun ⟨c', hc'⟩ => ?_
      rw [hexec] at hc'
      cases hc'
      rfl
    have hr : s.beginClock.serveBus.phase ≠ 0 → Ready s.beginClock.serveBus (decodeWord c) := by
      rw [State.phase_of_exec hexec]
      intro h0
      obtain ⟨-, -, -, hr⟩ := (seqOk_iff_of_exec hexec).1 (hk.resolve_left h0)
      exact hr
    exact inv_iff.2
      ⟨exec_motorsOk ht hm.clockBus hr, exec_servoStateOk ht hv.clockBus, exec_err_le ht he', exec_seqOk ht hexec hk⟩

end Sys2Proof.Safety
end

section
/-! The register map read (R61, R64): which addresses name a register, and the words that show several state elements,
field by field. -/

namespace Sys2Proof.Machine

/-! ### Addresses -/

theorem readReg_of_offset (s : State) {a : Word} {r : Reg} (h : a.toNat = r.offset) : readReg s a = r.value s := by
  obtain rfl : a = BitVec.ofNat 32 r.offset := by rw [← h, BitVec.ofNat_toNat, BitVec.setWidth_eq]
  simp only [readReg, Reg.find_offset]

theorem readReg_of_unmapped (s : State) {a : Word} (h : ∀ r : Reg, r.offset ≠ a.toNat) : readReg s a = 0 := by
  simp only [readReg, Reg.find_eq_none h]

/-- The map ends before 0x68 and leaves out 0x1C and 0x30 to 0x3F (R61). -/
theorem Reg.offset_mapped (r : Reg) : r.offset < 0x68 ∧ r.offset ≠ 0x1C ∧ (r.offset < 0x30 ∨ 0x3F < r.offset) := by
  cases r with
  | slotState id => cases id <;> decide
  | chPeriod id => cases id <;> decide
  | chWidth id => cases id <;> decide
  | _ => decide

theorem SlotId.offset_slotState (id : SlotId) : (Reg.slotState id).offset = 0x1C + 4 * id.num.toNat := by
  cases id <;> rfl

theorem SlotId.offset_chPeriod (id : SlotId) : (Reg.chPeriod id.chan).offset = 0x38 + 8 * id.num.toNat := by
  cases id <;> rfl

theorem SlotId.offset_chWidth (id : SlotId) : (Reg.chWidth id.chan).offset = (Reg.chPeriod id.chan).offset + 4 := by
  cases id <;> rfl

/-- The WIDTH register of a channel is the word after its PERIOD register (R61). -/
theorem toNat_add_four_of_chPeriod {a : Word} {id : SlotId} (h : a.toNat = (Reg.chPeriod id.chan).offset) :
    (a + 4).toNat = (Reg.chWidth id.chan).offset := by
  obtain ⟨hlt, -⟩ := (Reg.chPeriod id.chan).offset_mapped
  have h4 : (4 : Word).toNat = 4 := rfl
  rw [SlotId.offset_chWidth, ← h, BitVec.toNat_add_of_lt (by omega), h4]

/-! ### Fields -/

theorem statusWord_fields (s : State) :
    (statusWord s).getLsbD 0 = s.busy ∧ (statusWord s).extractLsb' 1 3 = 0 ∧ (statusWord s).extractLsb' 4 4 = s.err ∧
      (statusWord s).getLsbD 8 = s.diag ∧ (statusWord s).getLsbD 9 = s.setupFault ∧
      (statusWord s).getLsbD 10 = s.regBound ∧ (statusWord s).getLsbD 11 = s.servoBound ∧
      (statusWord s).extractLsb' 12 20 = 0 := by
  simp (disch := decide) only [statusWord, BitVec.getLsbD_append, BitVec.getLsbD_ofBool,
    BitVec.extractLsb'_append_eq_of_le, BitVec.extractLsb'_append_eq_of_add_le]
  simp

theorem slotStateWord_fields (v : Slot) :
    (slotStateWord v).getLsbD 0 = v.occ ∧ (slotStateWord v).getLsbD 1 = v.dir.bit ∧
      (slotStateWord v).extractLsb' 2 2 = v.run.code ∧ (slotStateWord v).getLsbD 4 = v.line ∧
      (slotStateWord v).extractLsb' 5 27 = 0 := by
  simp (disch := decide) only [slotStateWord, BitVec.getLsbD_append, BitVec.getLsbD_ofBool,
    BitVec.extractLsb'_append_eq_of_le, BitVec.extractLsb'_append_eq_of_add_le]
  simp

theorem servoStateWord_fields (s : State) :
    (servoStateWord s).getLsbD 0 = s.servoBound ∧ (servoStateWord s).getLsbD 1 = s.servoActive ∧
      (servoStateWord s).extractLsb' 2 6 = 0 ∧ (servoStateWord s).extractLsb' 8 8 = s.servoAngle ∧
      (servoStateWord s).extractLsb' 16 16 = 0 := by
  simp (disch := decide) only [servoStateWord, BitVec.getLsbD_append, BitVec.getLsbD_ofBool,
    BitVec.extractLsb'_append_eq_of_le, BitVec.extractLsb'_append_eq_of_add_le]
  simp

/-- A byte shown as a word: the byte, then zeros. -/
theorem setWidth_byte_fields (b : Byte) :
    (b.setWidth 32).extractLsb' 0 8 = b ∧ (b.setWidth 32).extractLsb' 8 24 = 0 := by
  refine ⟨by simp [BitVec.extractLsb'_setWidth_of_le], BitVec.eq_of_getLsbD_eq fun i hi => ?_⟩
  simp [-BitVec.getLsbD_eq_getElem]

/-- Settles O16: each mapped address by its register's offset, every other one by the bounds of the map. -/
theorem registerMapReads : Obligations.RegisterMapReads := by
  unfold Obligations.RegisterMapReads
  intro s
  have hstatus : readReg s 0x0C = statusWord s := readReg_of_offset s (r := .status) rfl
  have hdir : readReg s 0x10 = s.dirByte.setWidth 32 := readReg_of_offset s (r := .dirbyte) rfl
  have hservo : readReg s 0x18 = servoStateWord s := readReg_of_offset s (r := .servoState) rfl
  refine ⟨readReg_of_offset s (r := .cmd) rfl, readReg_of_offset s (r := .period) rfl,
    readReg_of_offset s (r := .width) rfl, hstatus ▸ statusWord_fields s, hdir ▸ setWidth_byte_fields s.dirByte,
    readReg_of_offset s (r := .result) rfl, hservo ▸ servoStateWord_fields s, fun id a ha => ?_, fun id a ha => ?_,
    readReg_of_offset s (r := .chPeriod .c5) rfl, readReg_of_offset s (r := .chWidth .c5) rfl,
    readReg_of_unmapped s fun r => ?_, fun a ha => readReg_of_unmapped s fun r => ?_⟩
  · rw [readReg_of_offset s (ha.trans id.offset_slotState.symm)]
    exact slotStateWord_fields _
  · have hp := ha.trans id.offset_chPeriod.symm
    exact ⟨readReg_of_offset s hp, readReg_of_offset s (toNat_add_four_of_chPeriod hp)⟩
  · obtain ⟨-, hne, -⟩ := r.offset_mapped
    exact hne
  · obtain ⟨hlt, -, hgap⟩ := r.offset_mapped
    omega

end Sys2Proof.Machine
end

section
/-! The bus over a whole clock step (R62, R64 to R67): what is refused, and what a read, a held write and an accepted
write leave in the queue and on `bus_rdata`. No later part of the clock step touches either (logs 3, 4). -/

namespace Sys2Proof.Machine

open Sys2Proof.Safety

/-! ### Refusals (R62) -/

theorem badAccess_of_width_ne (addr : Word) {width : Nat} (h : width ≠ 4) :
    badAccess addr width = some .accessWidth := by
  simp [badAccess, h]

theorem badAccess_of_misaligned {addr : Word} (h : addr.toNat % 4 ≠ 0) :
    badAccess addr 4 = some .misalignedAccess := by
  simp [badAccess, h]

theorem badAccess_of_aligned {addr : Word} (h : addr.toNat % 4 = 0) : badAccess addr 4 = none := by
  simp [badAccess, h]

theorem State.busRefusal_of_read {s : State} {addr : Word} {width : Nat} {rest : List Access}
    (h : s.host = .read addr width :: rest) : s.busRefusal = badAccess addr width := by
  simp only [State.busRefusal, h]

theorem State.busRefusal_of_write {s : State} {addr v : Word} {width : Nat} {rest : List Access}
    (h : s.host = .write addr width v :: rest) : s.busRefusal = badAccess addr width := by
  simp only [State.busRefusal, h]

theorem step_of_busRefusal {s : State} {r : Refusal} (h : s.busRefusal = some r) : step s = .refused r := by
  simp only [step, h]

/-- The bus alone refuses: no command does. -/
theorem step_ne_refused {s : State} (h : s.busRefusal = none) (r : Refusal) : step s ≠ .refused r := by
  obtain ⟨r', hr', -⟩ | ⟨-, -, hs⟩ | ⟨-, -, -, hs⟩ | ⟨-, -, c, k, -, hs⟩ := step_cases s
  · simp [h] at hr'
  · simp [hs]
  · simp [hs]
  · rw [hs]
    exact exec_ne_refused _ _ r

/-- Settles O12: a read and a write are refused by the same check of width, then address. -/
theorem misalignedAccessIsRefused : Obligations.MisalignedAccessIsRefused := by
  unfold Obligations.MisalignedAccessIsRefused
  intro s addr v width rest hhost
  have hb : s.busRefusal = badAccess addr width := hhost.elim State.busRefusal_of_read State.busRefusal_of_write
  refine ⟨fun hw => step_of_busRefusal (hb.trans (badAccess_of_width_ne addr hw)), ?_⟩
  rintro rfl ha
  exact step_of_busRefusal (hb.trans (badAccess_of_misaligned ha))

/-! ### Accepted writes (R65) -/

theorem writeReg_of_unwritable {addr : Word} (h0 : addr ≠ 0x00) (h4 : addr ≠ 0x04) (h8 : addr ≠ 0x08) (v : Word)
    (s : State) : writeReg addr v s = s := by
  obtain ⟨h, -⟩ | ⟨h, -⟩ | ⟨h, -⟩ | ⟨-, -, -, h⟩ := writeReg_cases addr v s
  · exact absurd h h0
  · exact absurd h h4
  · exact absurd h h8
  · exact h

/-- A write leaves the queue and the last read's word (log 27). -/
theorem writeReg_ports (addr v : Word) (s : State) :
    (writeReg addr v s).host = s.host ∧ (writeReg addr v s).busRdata = s.busRdata := by
  obtain ⟨-, h⟩ | ⟨-, h⟩ | ⟨-, h⟩ | ⟨-, -, -, h⟩ := writeReg_cases addr v s <;> rw [h] <;> exact ⟨rfl, rfl⟩

/-- Settles O17: the three writable registers, and every other address. -/
theorem acceptedWriteEffect : Obligations.AcceptedWriteEffect := by
  unfold Obligations.AcceptedWriteEffect
  intro s addr v rest hhost hb
  rw [State.serveBus_write hhost hb]
  refine ⟨?_, ?_, ?_, fun h0 h4 h8 => writeReg_of_unwritable h0 h4 h8 v _⟩ <;> rintro rfl <;> rfl

/-! ### The queue and the read data after a clock step -/

/-- What the bus leaves in the queue and on `bus_rdata` stands at the end of the clock step (logs 3, 4). -/
theorem step_host_busRdata {s t : State} (h : step s = .next t) :
    t.host = s.beginClock.serveBus.host ∧ t.busRdata = s.beginClock.serveBus.busRdata := by
  obtain ⟨-, -, rfl⟩ | ⟨-, -, -, rfl⟩ | ⟨-, -, c, k, -, ht⟩ := step_next h
  · exact ⟨rfl, rfl⟩
  · exact ⟨rfl, rfl⟩
  · obtain ⟨-, -, -, hhost, -⟩ := exec_inputs ht
    obtain ⟨hdata, -⟩ := exec_ports ht
    exact ⟨hhost, hdata⟩

/-- A read is served in its own clock step, with the value before that step (R64; log 3). -/
theorem step_of_read {s t : State} {addr : Word} {width : Nat} {rest : List Access}
    (hh : s.host = .read addr width :: rest) (h : step s = .next t) : t.host = rest ∧ t.busRdata = readReg s addr := by
  have hbus := State.serveBus_read (s := s.beginClock) hh
  obtain ⟨hhost, hdata⟩ := step_host_busRdata h
  rw [hbus] at hhost hdata
  exact ⟨hhost, hdata.trans (readReg_beginClock s addr)⟩

/-- A write waits while BUSY = 1 (R66). -/
theorem step_of_held_write {s t : State} {addr v : Word} {width : Nat} {rest : List Access}
    (hh : s.host = .write addr width v :: rest) (hb : s.busy = true) (h : step s = .next t) :
    t.host = s.host ∧ t.busRdata = s.busRdata := by
  have hbus := State.serveBus_held (s := s.beginClock) hh hb
  obtain ⟨hhost, hdata⟩ := step_host_busRdata h
  rw [hbus] at hhost hdata
  exact ⟨hhost, hdata⟩

/-- A write leaves the queue when BUSY = 0 (R66). -/
theorem step_of_accepted_write {s t : State} {addr v : Word} {width : Nat} {rest : List Access}
    (hh : s.host = .write addr width v :: rest) (hb : s.busy = false) (h : step s = .next t) :
    t.host = rest ∧ t.busRdata = s.busRdata := by
  have hbus := State.serveBus_write (s := s.beginClock) hh hb
  obtain ⟨hhost, hdata⟩ := step_host_busRdata h
  obtain ⟨hwhost, hwdata⟩ := writeReg_ports addr v { s.beginClock with host := rest }
  rw [hbus] at hhost hdata
  exact ⟨hhost.trans hwhost, hdata.trans hwdata⟩

/-- Settles O14: the bus serves the queue's head or leaves the queue. -/
theorem hostAccessesKeepOrder : Obligations.HostAccessesKeepOrder := by
  unfold Obligations.HostAccessesKeepOrder
  intro s t h
  obtain ⟨hhost, -⟩ := step_host_busRdata h
  rw [hhost]
  exact s.beginClock.serveBus_host

theorem State.busReady_of_read {s : State} {addr : Word} {width : Nat} {rest : List Access}
    (h : s.host = .read addr width :: rest) : s.busReady = true := by
  simp only [State.busReady, h]

theorem State.busReady_of_write {s : State} {addr v : Word} {width : Nat} {rest : List Access}
    (h : s.host = .write addr width v :: rest) : s.busReady = !s.busy := by
  simp only [State.busReady, h]

/-- Settles O15: the bus on a read, alone and in a clock step. -/
theorem readHasNoSideEffect : Obligations.ReadHasNoSideEffect := by
  unfold Obligations.ReadHasNoSideEffect
  intro s addr rest hhost
  have hb := State.busRefusal_of_read hhost
  exact ⟨State.serveBus_read hhost, State.busReady_of_read hhost,
    fun ha => step_ne_refused (hb.trans (badAccess_of_aligned ha)), fun t => step_of_read hhost⟩

/-! ### The running command while a write is held (R66) -/

theorem State.busy_iff {s : State} : s.busy = true ↔ ∃ c k, s.seq = .exec c k := by
  cases hs : s.seq <;> simp [State.busy, hs]

theorem State.advance_seq_of_exec {s : State} {c : Word} {k : Nat} (i : Instr) (hs : s.seq = .exec c k) :
    (s.advance i).seq = .exec c (k + 1) := by
  rw [State.advance_seq, State.word_of_exec i hs, State.phase_of_exec hs]

/-- A command step ends the command or goes on to its next step (R34). -/
theorem exec_seq {i : Instr} {c : Word} {k : Nat} {s t : State} (hs : s.seq = .exec c k) (h : exec i s = .next t) :
    t.seq = .idle ∨ t.seq = .exec c (k + 1) := by
  obtain ⟨z, -, hc, rfl⟩ | ⟨j, -, -, rfl⟩ | ⟨-, -, rfl⟩ | ⟨-, -, rfl⟩ := exec_next_case h
  · cases z with
    | raised e u => exact .inl rfl
    | done d u => exact .inl rfl
    | push u =>
      obtain ⟨-, -, hu, -⟩ := step0_push hc
      exact .inr (State.advance_seq_of_exec i (hu.trans hs))
  · exact .inr (State.advance_seq_of_exec i ((s.pushWrite_seq j).trans hs))
  · exact .inl rfl
  · exact .inl rfl

/-- While BUSY = 1 a clock step without a reset runs the command's next step and leaves PERIOD and WIDTH, whatever the
host does (R66). -/
theorem step_of_running {s t : State} {c : Word} {k : Nat} (hr : s.inputs.rst = false) (hs : s.seq = .exec c k)
    (h : step s = .next t) :
    t.period = s.period ∧ t.width = s.width ∧ (t.seq = .idle ∨ t.seq = .exec c (k + 1)) := by
  have hseq := serveBus_seq_of_exec hs
  obtain ⟨-, hp, hw⟩ := State.serveBus_busy (s := s.beginClock) (State.busy_of_exec hs)
  obtain ⟨hrst, -⟩ | ⟨-, -, hidle, -⟩ | ⟨-, -, c', k', hseq', ht⟩ := step_next h
  · exact Bool.noConfusion (hr.symm.trans hrst)
  · cases hseq.symm.trans hidle
  · obtain ⟨htp, htw, -⟩ := exec_inputs ht
    exact ⟨htp.trans hp, htw.trans hw, exec_seq hseq ht⟩

/-- Settles O13: a held write leaves the bus as it was and the command running; an accepted one leaves the queue. -/
theorem writesStallWhileBusy : Obligations.WritesStallWhileBusy := by
  unfold Obligations.WritesStallWhileBusy
  intro s t addr v rest hhost h
  have hready := State.busReady_of_write hhost
  refine ⟨fun hb => ?_, fun hb => ⟨by rw [hready, hb]; rfl, (step_of_accepted_write hhost hb h).1⟩⟩
  refine ⟨by rw [hready, hb]; rfl, (step_of_held_write hhost hb h).1, State.serveBus_held hhost hb, fun hr => ?_⟩
  obtain ⟨c, k, hs⟩ := State.busy_iff.1 hb
  obtain ⟨hp, hw, -⟩ := step_of_running hr hs h
  refine ⟨hp, hw, fun c' k' hs' => ?_⟩
  obtain ⟨-, -, hseq⟩ := step_of_running hr hs' h
  exact hseq

/-! ### The placed word (R70; log 18) -/

theorem State.withFetchWord_rst (s : State) (nbits w : Nat) : (s.withFetchWord nbits w).inputs.rst = false := by
  unfold State.withFetchWord State.inputs
  cases s.clkIn <;> rfl

theorem State.withFetchWord_offered (s : State) (w : Word) : Offered (s.withFetchWord 32 w.toNat) w s.host := by
  refine ⟨rfl, ?_⟩
  rw [State.withFetchWord, Nat.mod_eq_of_lt w.isLt, BitVec.ofNat_toNat, BitVec.setWidth_eq]

theorem step_of_offered {s : State} {w : Word} {rest : List Access} (hr : s.inputs.rst = false)
    (h : Offered s w rest) :
    step s = exec (decodeWord w) { s.beginClock with host := rest, seq := .exec w 0 } := by
  obtain ⟨-, -, -, -, -, hoffered, -⟩ := stepRunsDecodedCommand s w rest 0 0 hr
  exact hoffered h

/-- Settles O8: the placed word is a CMD write that the very next clock step accepts. -/
theorem placedWordRunsNext : Obligations.PlacedWordRunsNext := by
  unfold Obligations.PlacedWordRunsNext
  exact fun s w => step_of_offered (s.withFetchWord_rst 32 w.toNat) (s.withFetchWord_offered w)

end Sys2Proof.Machine
end

section
/-! The block after power-up and after a reset step (R260, R261): every register 0, no port driven, and the outside
world as it was. -/

namespace Sys2Proof.Machine

/-! ### The registers -/

theorem Reg.value_applyReset (s : State) (r : Reg) : r.value s.applyReset = 0 := by
  cases r with
  | status => simp [Reg.value, statusWord, State.busy]
  | servoState => simp [Reg.value, servoStateWord]
  | slotState id => rw [Reg.value, State.applyReset_slot]; rfl
  | chPeriod id => exact s.applyReset_chan_period id
  | chWidth id => exact s.applyReset_chan_width id
  | _ => rfl

theorem readReg_applyReset (s : State) (a : Word) : readReg s.applyReset a = 0 := by
  unfold readReg
  cases Reg.find a with
  | none => rfl
  | some r => exact r.value_applyReset s

/-- No register shows the trace (R61, R150). -/
theorem readReg_trace (s : State) (l : List Event) (a : Word) : readReg { s with trace := l } a = readReg s a := by
  unfold readReg
  cases Reg.find a with
  | none => rfl
  | some r => cases r <;> rfl

/-- Power-up is a reset that no trace records (R260, R262). -/
theorem State.reset_eq_applyReset : State.reset = { State.reset.applyReset with trace := [] } := rfl

theorem readReg_reset (a : Word) : readReg State.reset a = 0 := by
  rw [State.reset_eq_applyReset, readReg_trace, readReg_applyReset]

/-! ### The ports -/

/-- A block with nothing bound drives no port (R35). -/
theorem undriven_of_unbound {s : State} (hr : s.regBound = false) (hl : ∀ id, (s.slots.get id).line = false)
    (hs : s.servoBound = false) : (∀ p, s.pinLevel p = .z) ∧ (∀ id, s.outLevel id = .z) ∧ s.servoLevel = .z :=
  ⟨State.pinLevel_of_unbound hr, fun id => State.outLevel_of_no_line (hl id), State.servoLevel_of_unbound hs⟩

theorem State.applyReset_undriven (s : State) : (∀ p, s.applyReset.pinLevel p = .z) ∧
    (∀ id, s.applyReset.outLevel id = .z) ∧ s.applyReset.servoLevel = .z :=
  undriven_of_unbound rfl (fun id => by rw [s.applyReset_slot]; rfl) rfl

theorem State.reset_undriven :
    (∀ p, State.reset.pinLevel p = .z) ∧ (∀ id, State.reset.outLevel id = .z) ∧ State.reset.servoLevel = .z :=
  undriven_of_unbound rfl (fun id => by cases id <;> rfl) rfl

/-! ### A reset step -/

theorem step_of_rst {s t : State} (hr : s.inputs.rst = true) (h : step s = .next t) :
    t = s.beginClock.serveBus.applyReset := by
  obtain ⟨-, -, ht⟩ | ⟨hrst, -⟩ | ⟨hrst, -⟩ := step_next h
  · exact ht
  · exact Bool.noConfusion (hr.symm.trans hrst)
  · exact Bool.noConfusion (hr.symm.trans hrst)

/-- Settles O10: power-up and the reset step, each by its registers and its ports. -/
theorem resetRegistersReadZero : Obligations.ResetRegistersReadZero := by
  unfold Obligations.ResetRegistersReadZero
  rintro t (rfl | ⟨s, hr, h⟩)
  · exact ⟨readReg_reset, State.reset_undriven⟩
  · rw [step_of_rst hr h]
    exact ⟨readReg_applyReset _, State.applyReset_undriven _⟩

@[simp] theorem State.serveBus_srChain (s : State) : s.serveBus.srChain = s.srChain := by
  rw [s.serveBus_frame]

@[simp] theorem State.serveBus_srStore (s : State) : s.serveBus.srStore = s.srStore := by
  rw [s.serveBus_frame]

/-- Settles O11: the reset keeps what lies outside the block, and the bus serves the access as in any step. -/
theorem resetLeavesExternalRegister : Obligations.ResetLeavesExternalRegister := by
  unfold Obligations.ResetLeavesExternalRegister
  intro s t hr h
  obtain rfl := step_of_rst hr h
  obtain ⟨hpins, -⟩ := s.beginClock.serveBus.applyReset_undriven
  refine ⟨by simp, by simp, hpins, by simp, fun addr rest hhost => step_of_read hhost h,
    fun addr v rest hhost => ?_⟩
  cases hb : s.busy with
  | true =>
    obtain ⟨hqueue, hdata⟩ := step_of_held_write hhost hb h
    exact ⟨hdata, fun _ => hqueue, fun hf => Bool.noConfusion hf⟩
  | false =>
    obtain ⟨hqueue, hdata⟩ := step_of_accepted_write hhost hb h
    exact ⟨hdata, fun hf => Bool.noConfusion hf, fun _ => hqueue⟩

end Sys2Proof.Machine
end

section
/-! The opcode map as a relation (R88): its rows, which bits of the word they read (R83, R84), and the canonical word
read back (R80, R89). -/

namespace Sys2Proof

open Sys2Proof.Machine Sys2Proof.Safety

/-! ### Fields under a mask -/

/-- A mask that covers a field leaves it. -/
theorem extractLsb'_and_of_covered {m : Word} {start len : Nat} (hm : m.extractLsb' start len = BitVec.allOnes len)
    (c : Word) : (c &&& m).extractLsb' start len = c.extractLsb' start len := by
  rw [BitVec.extractLsb'_and, hm, BitVec.and_allOnes]

/-- Two words that agree under a mask agree on every field the mask covers. -/
theorem extractLsb'_congr_of_and_eq {c d m : Word} (h : c &&& m = d &&& m) {start len : Nat}
    (hm : m.extractLsb' start len = BitVec.allOnes len) : c.extractLsb' start len = d.extractLsb' start len := by
  rw [← extractLsb'_and_of_covered hm c, h, extractLsb'_and_of_covered hm d]

/-- Two words that agree under a mask agree on every bit the mask covers. -/
theorem getLsbD_congr_of_and_eq {c d m : Word} (h : c &&& m = d &&& m) {n : Nat} (hm : m.getLsbD n = true) :
    c.getLsbD n = d.getLsbD n := by
  have hn := congrArg (BitVec.getLsbD · n) h
  simpa only [BitVec.getLsbD_and, hm, Bool.and_true] using hn

theorem dirField_congr {c d : Word} (h : c.getLsbD 7 = d.getLsbD 7) : dirField c = dirField d := by
  rw [dirField, dirField, h]

/-! ### ILLEGAL words (R85, R86) -/

theorem reservedBitSet_iff {c : Word} :
    reservedBitSet c = true ↔ c.extractLsb' 9 7 ≠ 0 ∨ c.extractLsb' 24 8 ≠ 0 := by
  rw [reservedBitSet, Bool.or_eq_true, bne_iff_ne, bne_iff_ne]

theorem illegalWord_iff {c : Word} : illegalWord c = true ↔ reservedBitSet c = true ∨ 0xB ≤ (opField c).toNat := by
  rw [illegalWord, Bool.or_eq_true, reservedOpcode_iff]

theorem illegalWord_eq_false_iff {c : Word} :
    illegalWord c = false ↔ reservedBitSet c = false ∧ (opField c).toNat < 0xB := by
  rw [← Bool.not_eq_true, illegalWord_iff, not_or, Bool.not_eq_true, not_le]

/-! ### The rows of the opcode map (R88) -/

/-- The row of opcode `op` gives the word `c` the command `i`. The reserved opcodes have no row. -/
inductive OpcodeRow (c : Word) : BitVec 4 → Instr → Prop where
  | nop : OpcodeRow c 0x0 .nop
  | setMotor : OpcodeRow c 0x1 (.setMotor (slotField c) (dirField c) (flgField c))
  | getMotor : OpcodeRow c 0x2 (.getMotor (slotField c))
  | bindRegLines : OpcodeRow c 0x3 .bindRegLines
  | setDirection : OpcodeRow c 0x4 (.setDirection (slotField c) (dirField c))
  | invertDirection : OpcodeRow c 0x5 (.invertDirection (slotField c))
  | serialize : OpcodeRow c 0x6 .serialize
  | start : OpcodeRow c 0x7 (.start (slotField c) (flgField c))
  | stop : OpcodeRow c 0x8 (.stop (slotField c))
  | bindServoLine : OpcodeRow c 0x9 .bindServoLine
  | setAngle : OpcodeRow c 0xA (.setAngle (angleField c))

/-- Without a reserved bit the decoder answers what the row of the word's opcode says. -/
theorem OpcodeRow.decodeWord_eq {c : Word} {op : BitVec 4} {i : Instr} (h : OpcodeRow c op i)
    (hr : reservedBitSet c = false) (ho : opField c = op) : decodeWord c = i := by
  cases h <;> simp [decodeWord, hr, ho]

theorem exists_opcodeRow (c : Word) {op : BitVec 4} (h : op.toNat < 0xB) : ∃ i, OpcodeRow c op i := by
  obtain ⟨n, hn⟩ : ∃ n, op.toNat = n := ⟨_, rfl⟩
  obtain rfl : op = BitVec.ofNat 4 n := by rw [← hn, BitVec.ofNat_toNat, BitVec.setWidth_eq]
  rw [hn] at h
  interval_cases n
  exacts [⟨_, .nop⟩, ⟨_, .setMotor⟩, ⟨_, .getMotor⟩, ⟨_, .bindRegLines⟩, ⟨_, .setDirection⟩, ⟨_, .invertDirection⟩,
    ⟨_, .serialize⟩, ⟨_, .start⟩, ⟨_, .stop⟩, ⟨_, .bindServoLine⟩, ⟨_, .setAngle⟩]

/-- A word that is not ILLEGAL has a row, and the decoder answers it. -/
theorem opcodeRow_decodeWord {c : Word} (h : illegalWord c = false) : OpcodeRow c (opField c) (decodeWord c) := by
  obtain ⟨hr, hlt⟩ := illegalWord_eq_false_iff.1 h
  obtain ⟨i, hi⟩ := exists_opcodeRow c hlt
  rwa [hi.decodeWord_eq hr rfl]

/-! ### The words that a row takes (R81, R88) -/

/-- The word that shows an opcode and nothing else. -/
theorem opcode_setWidth_fields (op : BitVec 4) : (op.setWidth 32).extractLsb' 9 7 = 0 ∧
    (op.setWidth 32).extractLsb' 24 8 = 0 ∧ (op.setWidth 32).extractLsb' 0 4 = op := by
  decide +revert

/-- 0xFF00FE0F masks the reserved fields and the opcode: a word that shows its opcode alone under it has no reserved
bit set. -/
theorem fields_of_opcode_mask {c : Word} {op : BitVec 4} (h : c &&& 0xFF00FE0F = op.setWidth 32) :
    reservedBitSet c = false ∧ opField c = op := by
  obtain ⟨hrsv1, hrsv2, hop⟩ := opcode_setWidth_fields op
  rw [← h, extractLsb'_and_of_covered (by decide)] at hrsv1 hrsv2 hop
  refine ⟨?_, hop⟩
  rw [reservedBitSet, hrsv1, hrsv2]
  rfl

theorem OpcodeRow.decodeWord_of_mask {c : Word} {op : BitVec 4} {i : Instr} (h : OpcodeRow c op i)
    (hm : c &&& 0xFF00FE0F = op.setWidth 32) : decodeWord c = i := by
  obtain ⟨hr, ho⟩ := fields_of_opcode_mask hm
  exact h.decodeWord_eq hr ho

/-- Settles O3: the ILLEGAL words, and each row of the map for the words that its mask selects. -/
theorem decoderFollowsOpcodeMap : Obligations.DecoderFollowsOpcodeMap := by
  unfold Obligations.DecoderFollowsOpcodeMap
  intro c
  exact ⟨fun h => decodeWord_of_illegalWord (illegalWord_iff.2 (.inl (reservedBitSet_iff.2 h))),
    OpcodeRow.nop.decodeWord_of_mask, OpcodeRow.setMotor.decodeWord_of_mask, OpcodeRow.getMotor.decodeWord_of_mask,
    OpcodeRow.bindRegLines.decodeWord_of_mask, OpcodeRow.setDirection.decodeWord_of_mask,
    OpcodeRow.invertDirection.decodeWord_of_mask, OpcodeRow.serialize.decodeWord_of_mask,
    OpcodeRow.start.decodeWord_of_mask, OpcodeRow.stop.decodeWord_of_mask, OpcodeRow.bindServoLine.decodeWord_of_mask,
    OpcodeRow.setAngle.decodeWord_of_mask, fun h => decodeWord_of_illegalWord (illegalWord_iff.2 (.inr h))⟩

/-- A row reads no bit outside its opcode's mask (R84). -/
theorem OpcodeRow.congr {c d : Word} {op : BitVec 4} {i : Instr} (h : OpcodeRow c op i)
    (hm : c &&& readMask op = d &&& readMask op) : OpcodeRow d op i := by
  have hslot (hcov : (readMask op).extractLsb' 4 3 = BitVec.allOnes 3) : slotField c = slotField d :=
    extractLsb'_congr_of_and_eq hm hcov
  have hdir (hcov : (readMask op).getLsbD 7 = true) : dirField c = dirField d :=
    dirField_congr (getLsbD_congr_of_and_eq hm hcov)
  have hflg (hcov : (readMask op).getLsbD 8 = true) : flgField c = flgField d := getLsbD_congr_of_and_eq hm hcov
  have hangle (hcov : (readMask op).extractLsb' 16 8 = BitVec.allOnes 8) : angleField c = angleField d :=
    extractLsb'_congr_of_and_eq hm hcov
  cases h with
  | nop => exact .nop
  | setMotor => rw [hslot (by decide), hdir (by decide), hflg (by decide)]; exact .setMotor
  | getMotor => rw [hslot (by decide)]; exact .getMotor
  | bindRegLines => exact .bindRegLines
  | setDirection => rw [hslot (by decide), hdir (by decide)]; exact .setDirection
  | invertDirection => rw [hslot (by decide)]; exact .invertDirection
  | serialize => exact .serialize
  | start => rw [hslot (by decide), hflg (by decide)]; exact .start
  | stop => rw [hslot (by decide)]; exact .stop
  | bindServoLine => exact .bindServoLine
  | setAngle => rw [hangle (by decide)]; exact .setAngle

/-- Every opcode's mask covers the opcode. -/
theorem readMask_covers_opcode (op : BitVec 4) : (readMask op).extractLsb' 0 4 = BitVec.allOnes 4 := by
  decide +revert

/-- Settles O4: the words have one opcode, and the row that decodes the first word holds of the second. -/
theorem unreadFieldsAreIgnored : Obligations.UnreadFieldsAreIgnored := by
  unfold Obligations.UnreadFieldsAreIgnored
  intro c d hc hd hm
  have hop : opField c = opField d := extractLsb'_congr_of_and_eq hm (readMask_covers_opcode _)
  have hrow : OpcodeRow d (opField d) (decodeWord c) := hop ▸ (opcodeRow_decodeWord hc).congr hm
  obtain ⟨hr, -⟩ := illegalWord_eq_false_iff.1 hd
  exact (hrow.decodeWord_eq hr rfl).symm

/-! ### The canonical word (R80, R83, R89) -/

/-- The fields of the CMD format read back, each by its own law (`opField_cmdWord`, `slotField_cmdWord`, …); an ILLEGAL
command is its own word. -/
theorem decodeWord_encode {i : Instr} (h : i.wf = true) : decodeWord (encode i) = i := by
  cases i with
  | illegal w => exact decodeWord_of_illegalWord h
  | _ => simp [encode, decodeWord]

theorem decodeBytes_wordLanes (w : Word) (rest : List Byte) :
    decodeBytes (wordLanes w ++ rest) = .ok (decodeWord w, rest) := by
  rw [wordLanes, List.cons_append, List.cons_append, List.cons_append, List.cons_append, List.nil_append, decodeBytes,
    wordOfLanes_lane]

/-- Settles O1: the word reads back by its fields, and the four lanes make the word. -/
theorem decodeEncodeRoundTrip : Obligations.DecodeEncodeRoundTrip := by
  unfold Obligations.DecodeEncodeRoundTrip
  intro i h
  have hdec := decodeWord_encode h
  exact ⟨hdec, fun rest => by rw [decodeBytes_wordLanes, hdec]⟩

/-- Settles O2: sixteen closed words. -/
theorem testVectorWordsDecode : Obligations.TestVectorWordsDecode := by
  unfold Obligations.TestVectorWordsDecode
  decide

/-- Settles O5: the two words have the same bits. -/
theorem assembledWordFields : Obligations.AssembledWordFields := by
  unfold Obligations.AssembledWordFields
  intro op slot dir flg angle
  refine BitVec.eq_of_getLsbD_eq fun n hn => ?_
  rw [cmdWord_getLsbD]
  simp only [BitVec.getLsbD_or, BitVec.getLsbD_shiftLeft, BitVec.getLsbD_setWidth, BitVec.getLsbD_ofBool]
  grind

end Sys2Proof
end

section
/-! The pseudo-instructions (R90): the operands a line takes (R89), the answer of `isrunning` (R176), and the `wait` on
the bus. -/

namespace Sys2Proof.Machine

namespace Asm

@[simp] theorem slotOperand_toNat (slot : BitVec 3) : slotOperand slot.toNat = some slot := by
  rw [slotOperand, if_pos (Nat.le_of_lt_succ slot.isLt), BitVec.ofNat_toNat, BitVec.setWidth_eq]

@[simp] theorem valueOperand_toNat (v : Word) : valueOperand v.toNat = some v := by
  rw [valueOperand, if_pos v.isLt, BitVec.ofNat_toNat, BitVec.setWidth_eq]

theorem startfull_assemble (slot : BitVec 3) :
    (Line.startfull slot.toNat).assemble = some [issue (.start slot true)] := by
  simp [Line.assemble]

theorem startpwm_assemble (slot : BitVec 3) (p w : Word) : (Line.startpwm slot.toNat p.toNat w.toNat).assemble =
    some [writeOf .period p, writeOf .width w, issue (.start slot false)] := by
  simp [Line.assemble]

theorem isrunning_assemble (id : SlotId) :
    (Line.isrunning id.num.toNat).assemble = some [readOf (.slotState id)] := by
  simp [Line.assemble]

end Asm

/-- The code of a run status is not 0 exactly where the motor runs (R24, R176). -/
theorem Run.code_bne_zero (r : Run) : (r.code != 0) = r.isRunning := by
  cases r <;> rfl

theorem runningAnswer_slotState (s : State) (id : SlotId) :
    Asm.runningAnswer (readReg s (BitVec.ofNat 32 (Reg.slotState id).offset)) = (s.slots.get id).run.isRunning := by
  obtain ⟨-, -, hrun, -, -⟩ := slotStateWord_fields (s.slots.get id)
  have hread : readReg s (BitVec.ofNat 32 (Reg.slotState id).offset) = slotStateWord (s.slots.get id) := by
    simp only [readReg, Reg.find_offset, Reg.value]
  rw [Asm.runningAnswer, hread, hrun, Run.code_bne_zero]

/-- Bit 0 of STATUS is BUSY (R61). -/
theorem getLsbD_zero_readReg_status (s : State) : (readReg s 0x0C).getLsbD 0 = s.busy := by
  obtain ⟨hbusy, -⟩ := statusWord_fields s
  rw [readReg_of_offset s (r := .status) rfl]
  exact hbusy

theorem State.serveBus_wait_of_busy {s : State} {rest : List Access} (h : s.host = .wait :: rest)
    (hb : s.busy = true) : s.serveBus = { s with busRdata := readReg s 0x0C } := by
  rw [State.serveBus_wait h, if_pos hb]

theorem State.serveBus_wait_of_idle {s : State} {rest : List Access} (h : s.host = .wait :: rest)
    (hb : s.busy = false) : s.serveBus = { s with host := rest, busRdata := readReg s 0x0C } := by
  rw [State.serveBus_wait h, if_neg (Bool.not_eq_true _ ▸ hb)]

/-- Settles O6: each line by its own lemma, `wait` by the bus on it. -/
theorem pseudoInstructionExpansions : Obligations.PseudoInstructionExpansions := by
  unfold Obligations.PseudoInstructionExpansions
  intro slot id p w
  refine ⟨rfl, Asm.startfull_assemble slot, Asm.startpwm_assemble slot p w,
    fun s => ⟨Asm.isrunning_assemble id, runningAnswer_slotState s id⟩, rfl, rfl, 
    fun s rest h => ⟨fun hb => ?_, fun hb => ?_⟩⟩
  · exact ⟨State.serveBus_wait_of_busy h hb, (getLsbD_zero_readReg_status s).trans hb⟩
  · exact ⟨State.serveBus_wait_of_idle h hb, (getLsbD_zero_readReg_status s).trans hb⟩

end Sys2Proof.Machine
end

section
/-! The control commands (R103, R104) and the frame of every command: what its step 0 comes to, how many steps it has
(R101; log 13), and when it writes STATUS (R100, R230, R234). -/

namespace Sys2Proof.Machine

open Sys2Proof.Safety

/-! ### Step 0 of NOP and ILLEGAL -/

/-- A command at its step 0 does what `step0` says (R100, R101). -/
theorem exec_of_step0 (i : Instr) {s : State} {c : Word} (hs : s.seq = .exec c 0) :
    exec i s = .next ((step0 i s).close i) :=
  exec_next.2 (.inl ⟨State.phase_of_exec hs, rfl⟩)

/-- Settles O18: the opcode's row, and step 0 of NOP. -/
theorem nopWritesStatusOnly : Obligations.NopWritesStatusOnly := by
  unfold Obligations.NopWritesStatusOnly
  exact ⟨fun _ => OpcodeRow.nop.decodeWord_of_mask, fun _ _ hs => exec_of_step0 .nop hs⟩

/-- ILLEGAL writes ERR and DIAG, and SETUP_FAULT stays: its error is not SETUP (R231). -/
theorem State.raise_illegal (s : State) : s.raise .illegal = { s with err := 7, diag := false, seq := .idle } := by
  simp [State.raise, Err.code]

/-- Settles O19: the ILLEGAL words decode to ILLEGAL, whose step 0 raises its error. -/
theorem illegalReportsSeven : Obligations.IllegalReportsSeven := by
  unfold Obligations.IllegalReportsSeven
  intro c s hs hc
  have hword : illegalWord c = true := by
    rw [illegalWord_iff, reservedBitSet_iff, or_assoc]
    exact hc
  exact ⟨decodeWord_of_illegalWord hword, (exec_of_step0 (.illegal c) hs).trans (congrArg _ s.raise_illegal)⟩

/-! ### The steps a command has (R101) -/

/-- A command has one step, or a push, or a push and a drive step (R101, R269). -/
theorem stepCount_cases (i : Instr) : stepCount i = 1 ∨ stepCount i = 27 ∨ stepCount i = 28 := by
  cases i <;> simp [stepCount]

/-- A command answers a next state exactly at the steps it has. -/
theorem exists_exec_next_iff {i : Instr} {s : State} : (∃ t, exec i s = .next t) ↔ s.phase < stepCount i := by
  have hcount := stepCount_cases i
  constructor
  · rintro ⟨t, h⟩
    obtain ⟨hp, -⟩ | ⟨j, hp, hj, -⟩ | ⟨hn, hp, -⟩ | ⟨hn, hp, -⟩ := exec_next.1 h <;> omega
  · intro h
    by_cases hlast : s.phase + 1 < stepCount i
    · cases hp : s.phase with
      | zero => exact ⟨_, exec_next.2 (.inl ⟨hp, rfl⟩)⟩
      | succ j => exact ⟨_, exec_next.2 (.inr (.inl ⟨j, hp, by omega, rfl⟩))⟩
    · obtain hn | hn | hn := hcount
      · exact ⟨_, exec_next.2 (.inl ⟨by omega, rfl⟩)⟩
      · exact ⟨_, exec_next.2 (.inr (.inr (.inl ⟨hn, by omega, rfl⟩)))⟩
      · exact ⟨_, exec_next.2 (.inr (.inr (.inr ⟨hn, by omega, rfl⟩)))⟩

/-- A command that answers no next state faults: it is never refused, and there is one fault. -/
theorem exec_fault_iff {i : Instr} {s : State} : exec i s = .fault .noSuchPhase ↔ ¬ ∃ t, exec i s = .next t := by
  cases h : exec i s with
  | next t => simp
  | fault r => cases r; simp
  | refused r => exact absurd h (exec_ne_refused i s r)

/-- Settles O57: no next state, and so the fault, exactly past the command's steps. -/
theorem noSuchPhaseFaults : Obligations.NoSuchPhaseFaults := by
  unfold Obligations.NoSuchPhaseFaults
  intro i s
  rw [exec_fault_iff, exists_exec_next_iff, not_lt]

/-! ### When STATUS is written (R100, R234) -/

@[simp] theorem State.pushWrite_diag (s : State) (j : Nat) : (s.pushWrite j).diag = s.diag := by
  rw [s.pushWrite_frame j]

@[simp] theorem State.pushWrite_setupFault (s : State) (j : Nat) : (s.pushWrite j).setupFault = s.setupFault := by
  rw [s.pushWrite_frame j]

/-- Going on leaves the next step of the command in the sequencer, also where an operation came before (R34). -/
theorem State.advance_seq_congr {s u : State} (i : Instr) (h : u.seq = s.seq) :
    (u.advance i).seq = .exec (s.word i) (s.phase + 1) := by
  rw [State.advance_seq, State.word_congr i h, State.phase_congr h]

/-- Step 0 raises an error of the command's list only (R230, R232). -/
theorem step0_raised_mem {i : Instr} {s u : State} {e : Err} (h : Step0Case s i (.raised e u)) : e ∈ errorsOf i := by
  cases h with
  | raised _ _ _ hm | refused _ _ hm => exact hm

/-- A command done in step 0 leaves SETUP_FAULT, and sets DIAG only as INVERT_DIRECTION (R117, R234). -/
theorem step0_done_status {i : Instr} {s u : State} {d : Bool} (h : Step0Case s i (.done d u)) :
    u.setupFault = s.setupFault ∧ (d = true → ∃ slot, i = .invertDirection slot) := by
  cases h with
  | noMotor slot => exact ⟨rfl, fun _ => ⟨slot, rfl⟩⟩
  | _ => exact ⟨rfl, fun hd => Bool.noConfusion hd⟩

/-- A step 0 with a push to follow leaves STATUS (R100). -/
theorem step0_push_status {i : Instr} {s u : State} (h : Step0Case s i (.push u)) :
    u.err = s.err ∧ u.diag = s.diag ∧ u.setupFault = s.setupFault := by
  cases h <;> exact ⟨rfl, rfl, rfl⟩

/-- Settles O52: a step that goes on leaves STATUS; step 0 ends with its error or its DIAG; the last pin write and the
drive step end with OK. -/
theorem statusWrittenAtTheEnd : Obligations.StatusWrittenAtTheEnd := by
  unfold Obligations.StatusWrittenAtTheEnd
  intro i s t h
  obtain ⟨z, hp, hc, rfl⟩ | ⟨j, -, -, rfl⟩ | ⟨-, -, rfl⟩ | ⟨-, -, rfl⟩ := exec_next_case h
  · cases z with
    | raised e u =>
      exact .inr ⟨rfl, fun hd => Bool.noConfusion hd, .inr ⟨hp, rfl, e, step0_raised_mem hc, rfl⟩⟩
    | done d u =>
      obtain ⟨hsf, hd⟩ := step0_done_status hc
      exact .inr ⟨rfl, fun hdiag => ⟨rfl, hd hdiag⟩, .inl ⟨rfl, hsf⟩⟩
    | push u =>
      obtain ⟨-, -, hseq, -⟩ := step0_push hc
      obtain ⟨herr, hdiag, hsf⟩ := step0_push_status hc
      exact .inl ⟨State.advance_seq_congr i hseq, herr, hdiag, hsf⟩
  · exact .inl ⟨State.advance_seq_congr i (s.pushWrite_seq j), s.pushWrite_err j, s.pushWrite_diag j,
      s.pushWrite_setupFault j⟩
  · exact .inr ⟨rfl, fun hd => Bool.noConfusion hd, .inl ⟨rfl, s.pushWrite_setupFault 25⟩⟩
  · refine .inr ⟨rfl, fun hd => Bool.noConfusion hd, .inl ⟨rfl, ?_⟩⟩
    rw [driveOf_frame]
    rfl

end Sys2Proof.Machine
end

section
/-! Slot numbers (R113) and the direction encoder (R110 to R112): each table entry is one bit of the byte, and each bit
belongs to one slot and one direction. -/

namespace Sys2Proof.Machine

/-! ### Slot numbers -/

/-- The fields that name a slot are 1 to 4 (R113). -/
theorem SlotId.exists_num_iff {slot : BitVec 3} :
    (∃ id : SlotId, slot = id.num) ↔ 1 ≤ slot.toNat ∧ slot.toNat ≤ 4 := by
  have hsome : (SlotId.ofField slot).isSome = true ↔ 1 ≤ slot.toNat ∧ slot.toNat ≤ 4 := by decide +revert
  simp only [← hsome, Option.isSome_iff_exists, SlotId.ofField_eq_some]

/-- The fields that name no slot are 0 and 5 to 7 (R113). -/
theorem SlotId.ofField_eq_none_iff {slot : BitVec 3} :
    SlotId.ofField slot = none ↔ slot.toNat = 0 ∨ 5 ≤ slot.toNat := by
  decide +revert

/-- Settles O20: the slot numbers, and the fields that name none. -/
theorem validSlotNumbers : Obligations.ValidSlotNumbers := by
  unfold Obligations.ValidSlotNumbers
  intro slot
  refine ⟨SlotId.exists_num_iff.symm, fun id => SlotId.ofField_eq_some, fun h => SlotId.ofField_eq_none_iff.2 ?_⟩
  obtain rfl | rfl | rfl | rfl := h <;> decide

/-! ### The direction bit table (R110) -/

/-- The number of the one bit that a table entry sets (R110). -/
def dirBitNum : SlotId → Dir → Nat
  | .s1, .cw => 2
  | .s1, .ccw => 3
  | .s2, .cw => 1
  | .s2, .ccw => 4
  | .s3, .cw => 0
  | .s3, .ccw => 6
  | .s4, .cw => 5
  | .s4, .ccw => 7

/-- The slot and direction that a bit of the byte stands for: the table read backwards. -/
def dirBitOwner : Nat → SlotId × Dir
  | 0 => (.s3, .cw)
  | 1 => (.s2, .cw)
  | 2 => (.s1, .cw)
  | 3 => (.s1, .ccw)
  | 4 => (.s2, .ccw)
  | 5 => (.s4, .cw)
  | 6 => (.s3, .ccw)
  | _ => (.s4, .ccw)

theorem dirBit_eq_twoPow (id : SlotId) (d : Dir) : dirBit id d = BitVec.twoPow 8 (dirBitNum id d) := by
  cases id <;> cases d <;> rfl

theorem dirBitNum_lt (id : SlotId) (d : Dir) : dirBitNum id d < 8 := by
  cases id <;> cases d <;> decide

theorem dirBitOwner_dirBitNum (id : SlotId) (d : Dir) : dirBitOwner (dirBitNum id d) = (id, d) := by
  cases id <;> cases d <;> rfl

theorem dirBitNum_inj {id id' : SlotId} {d d' : Dir} :
    dirBitNum id d = dirBitNum id' d' ↔ id = id' ∧ d = d' := by
  refine ⟨fun h => ?_, fun ⟨hid, hd⟩ => hid ▸ hd ▸ rfl⟩
  have howner := congrArg dirBitOwner h
  rwa [dirBitOwner_dirBitNum, dirBitOwner_dirBitNum, Prod.mk.injEq] at howner

theorem getLsbD_dirBit (id : SlotId) (d : Dir) (n : Nat) :
    (dirBit id d).getLsbD n = true ↔ n = dirBitNum id d := by
  rw [dirBit_eq_twoPow, BitVec.getLsbD_twoPow, Bool.and_eq_true, decide_eq_true_iff, decide_eq_true_iff]
  exact ⟨fun h => h.2.symm, fun h => ⟨dirBitNum_lt id d, h.symm⟩⟩

/-! ### The direction byte (R111) -/

theorem getLsbD_slotBits (id : SlotId) (v : Slot) (n : Nat) :
    (slotBits id v).getLsbD n = true ↔ v.occ = true ∧ n = dirBitNum id v.dir := by
  rw [slotBits, ← getLsbD_dirBit]
  cases v.occ <;> simp

theorem SlotId.exists_iff {p : SlotId → Prop} : (∃ id, p id) ↔ p .s1 ∨ p .s2 ∨ p .s3 ∨ p .s4 := by
  refine ⟨fun ⟨id, h⟩ => ?_, ?_⟩
  · cases id <;> simp [h]
  · rintro (h | h | h | h) <;> exact ⟨_, h⟩

/-- A bit of the direction byte is 1 exactly where some occupied slot's entry sets it (R111). -/
theorem getLsbD_encodeDirs (b : Slots) (n : Nat) : (encodeDirs b).getLsbD n = true ↔
    ∃ id, (b.get id).occ = true ∧ n = dirBitNum id (b.get id).dir := by
  simp only [encodeDirs, BitVec.getLsbD_or, Bool.or_eq_true, getLsbD_slotBits, SlotId.exists_iff, or_assoc, Slots.get]

/-- Settles O26: the eight entries, and the byte's bits as the entries' bits. -/
theorem directionByteIsTableOr : Obligations.DirectionByteIsTableOr := by
  unfold Obligations.DirectionByteIsTableOr
  refine ⟨by decide, fun b n => ?_⟩
  simp only [getLsbD_encodeDirs, getLsbD_dirBit]

/-! ### The encoder's properties (R112) -/

/-- The bit of a slot and a direction shows whether that slot holds a motor of that direction. -/
theorem getLsbD_encodeDirs_dirBitNum (b : Slots) (id : SlotId) (d : Dir) :
    (encodeDirs b).getLsbD (dirBitNum id d) = true ↔ (b.get id).occ = true ∧ (b.get id).dir = d := by
  rw [getLsbD_encodeDirs]
  constructor
  · rintro ⟨id', ho, hn⟩
    obtain ⟨rfl, rfl⟩ := dirBitNum_inj.1 hn
    exact ⟨ho, rfl⟩
  · rintro ⟨ho, rfl⟩
    exact ⟨id, ho, rfl⟩

/-- Equal bytes mean equal occupancy and equal directions of the occupied slots (R112 (c)). -/
theorem occ_and_dir_of_encodeDirs_eq {b b' : Slots} (h : encodeDirs b = encodeDirs b') (id : SlotId) :
    (b.get id).occ = (b'.get id).occ ∧ ((b.get id).occ = true → (b.get id).dir = (b'.get id).dir) := by
  have hbit (d : Dir) : ((b.get id).occ = true ∧ (b.get id).dir = d) ↔
      ((b'.get id).occ = true ∧ (b'.get id).dir = d) := by
    rw [← getLsbD_encodeDirs_dirBitNum, h, getLsbD_encodeDirs_dirBitNum]
  refine ⟨Bool.eq_iff_iff.2 ⟨fun ho => ?_, fun ho => ?_⟩, fun ho => ?_⟩
  · exact ((hbit _).1 ⟨ho, rfl⟩).1
  · exact ((hbit _).2 ⟨ho, rfl⟩).1
  · exact ((hbit _).1 ⟨ho, rfl⟩).2.symm

theorem Slots.ext_get {b b' : Slots} (h : ∀ id, b.get id = b'.get id) : b = b' := by
  have h1 := h .s1
  have h2 := h .s2
  have h3 := h .s3
  have h4 := h .s4
  cases b
  cases b'
  simp_all only [Slots.get]

/-- Records of two slots may be written in either order. -/
theorem Slots.set_comm (b : Slots) {i j : SlotId} (h : i ≠ j) (v w : Slot) :
    (b.set i v).set j w = (b.set j w).set i v := by
  refine Slots.ext_get fun k => ?_
  simp only [Slots.get_set]
  by_cases hk : k = j
  · subst hk
    rw [if_pos rfl, if_neg h.symm, if_pos rfl]
  · rw [if_neg hk, if_neg hk]

/-- Writing one slot changes no bit but the two of that slot (R112 (d)). -/
theorem getLsbD_encodeDirs_set_of_ne (b : Slots) {id : SlotId} (v : Slot) {n : Nat} (h : ∀ d, n ≠ dirBitNum id d) :
    (encodeDirs (b.set id v)).getLsbD n = (encodeDirs b).getLsbD n := by
  have hother (id' : SlotId) : ((b.set id v).get id').occ = true ∧ n = dirBitNum id' ((b.set id v).get id').dir ↔
      (b.get id').occ = true ∧ n = dirBitNum id' (b.get id').dir := by
    by_cases hid : id' = id
    · subst hid
      exact ⟨fun hn => absurd hn.2 (h _), fun hn => absurd hn.2 (h _)⟩
    · rw [Slots.get_set_ne b v hid]
  rw [Bool.eq_iff_iff, getLsbD_encodeDirs, getLsbD_encodeDirs, exists_congr hother]

/-- Outside the two bits of a slot the byte does not depend on that slot's record (R112 (d)). -/
theorem encodeDirs_set_and_others (b : Slots) (id : SlotId) (v : Slot) :
    encodeDirs (b.set id v) &&& ~~~(dirBit id .cw ||| dirBit id .ccw) =
      encodeDirs b &&& ~~~(dirBit id .cw ||| dirBit id .ccw) := by
  refine BitVec.eq_of_getLsbD_eq fun n hn => ?_
  simp only [BitVec.getLsbD_and]
  by_cases h : ∃ d, n = dirBitNum id d
  · obtain ⟨d, rfl⟩ := h
    have hmask : (~~~(dirBit id .cw ||| dirBit id .ccw)).getLsbD (dirBitNum id d) = false := by
      have hd := (getLsbD_dirBit id d _).2 rfl
      rw [BitVec.getLsbD_not, BitVec.getLsbD_or]
      cases d <;> simp [hd, -BitVec.getLsbD_eq_getElem]
    rw [hmask, Bool.and_false, Bool.and_false]
  · rw [getLsbD_encodeDirs_set_of_ne b v (not_exists.1 h)]

/-- An empty bank encodes to 0 (R112 (e)). -/
theorem encodeDirs_of_empty {b : Slots} (h : ∀ id, (b.get id).occ = false) : encodeDirs b = 0 := by
  refine BitVec.eq_of_getLsbD_eq fun n _ => Bool.eq_iff_iff.2 ?_
  simp [getLsbD_encodeDirs, h, -BitVec.getLsbD_eq_getElem]

/-- A full bank encodes to the OR of its four entries. -/
theorem encodeDirs_of_full {b : Slots} (h : ∀ id, (b.get id).occ = true) : encodeDirs b =
    dirBit .s1 b.s1.dir ||| dirBit .s2 b.s2.dir ||| dirBit .s3 b.s3.dir ||| dirBit .s4 b.s4.dir := by
  have h1 : b.s1.occ = true := h .s1
  have h2 : b.s2.occ = true := h .s2
  have h3 : b.s3.occ = true := h .s3
  have h4 : b.s4.occ = true := h .s4
  simp only [encodeDirs, slotBits, h1, h2, h3, h4, if_true]

/-- A full bank sets four bits, whatever the directions (R112 (e)). -/
theorem length_bits_encodeDirs_of_full {b : Slots} (h : ∀ id, (b.get id).occ = true) :
    ((List.range 8).filter (fun n => (encodeDirs b).getLsbD n)).length = 4 := by
  rw [encodeDirs_of_full h]
  cases b.s1.dir <;> cases b.s2.dir <;> cases b.s3.dir <;> cases b.s4.dir <;> rfl

/-- Settles O27: the table by its bit numbers, the byte by its bits. -/
theorem encoderProperties : Obligations.EncoderProperties := by
  unfold Obligations.EncoderProperties
  refine ⟨fun id id' d d' h => ?_, fun id d => ⟨dirBitNum id d, dirBitNum_lt id d, ?_⟩,
    fun b id id' v v' h => by rw [b.set_comm h], fun b b' => occ_and_dir_of_encodeDirs_eq,
    encodeDirs_set_and_others, fun b => encodeDirs_of_empty, fun b => length_bits_encodeDirs_of_full⟩
  · rw [← dirBitNum_inj, ← getLsbD_dirBit, ← h, getLsbD_dirBit]
  · rw [dirBit_eq_twoPow]
    exact BitVec.eq_of_toNat_eq (by rw [BitVec.toNat_twoPow, BitVec.toNat_ofNat])

end Sys2Proof.Machine
end

section
/-! The slot commands step by step (R114 to R117): the motor commands' step 0 by its checks, the pin writes of a push,
and what none of the direction commands touches (R118). -/

namespace Sys2Proof.Machine

open Sys2Proof.Safety

/-! ### Errors (R231) -/

/-- An error other than SETUP writes ERR, DIAG and the sequencer only. -/
theorem State.raise_of_ne_setup (s : State) {e : Err} (h : e ≠ .setup) :
    s.raise e = { s with err := e.code, diag := false, seq := .idle } := by
  simp [State.raise, h]

theorem State.raise_setup (s : State) :
    s.raise .setup = { s with err := 6, diag := false, setupFault := true, seq := .idle } := by
  simp [State.raise, Err.code]

/-- A step 0 that raises an error other than SETUP ends the command with that error and changes nothing else. -/
theorem exec_of_step0_raised {i : Instr} {s : State} {c : Word} {e : Err} (hs : s.seq = .exec c 0)
    (h : step0 i s = .raised e s) (he : e ≠ .setup) :
    exec i s = .next { s with err := e.code, diag := false, seq := .idle } := by
  rw [exec_of_step0 i hs, h, Step0.close, s.raise_of_ne_setup he]

/-- A step 0 with a push to follow goes on to step 1. -/
theorem exec_of_step0_push {i : Instr} {s u : State} {c : Word} (hs : s.seq = .exec c 0)
    (h : step0 i s = .push u) (hu : u.seq = s.seq) : exec i s = .next { u with seq := .exec c 1 } := by
  rw [exec_of_step0 i hs, h, Step0.close, State.advance, State.word_of_exec i (hu.trans hs),
    State.phase_of_exec (hu.trans hs)]

/-! ### SET_MOTOR and GET_MOTOR (R114, R115) -/

theorem step0_setMotor_of_invalid {slot : BitVec 3} (h : SlotId.ofField slot = none) (dir : Dir) (flg : Bool)
    (s : State) : step0 (.setMotor slot dir flg) s = .raised .idxOutOfBounds s := by
  simp only [step0, setMotorBody, h]

theorem step0_setMotor_detached (id : SlotId) (dir : Dir) (s : State) :
    step0 (.setMotor id.num dir false) s = .done false (s.install id dir false) := by
  simp [step0, setMotorBody]

theorem step0_setMotor_granted {s : State} (h : s.acqGrant = true) (id : SlotId) (dir : Dir) :
    step0 (.setMotor id.num dir true) s = .done false (s.request.install id dir true) := by
  simp [step0, setMotorBody, h]

theorem step0_setMotor_refused {s : State} (h : s.acqGrant = false) (id : SlotId) (dir : Dir) :
    step0 (.setMotor id.num dir true) s = .raised .setup s.request := by
  simp [step0, setMotorBody, h]

/-- Settles O21: the opcode's row, and step 0 by the slot check and the acquisition. -/
theorem setMotorInstalls : Obligations.SetMotorInstalls := by
  unfold Obligations.SetMotorInstalls
  refine ⟨fun _ => OpcodeRow.setMotor.decodeWord_of_mask, fun s c dir flg hs => ⟨?_, fun slot hslot => ?_, ?_⟩⟩
  · rintro id bank hgrant rfl
    rw [exec_of_step0 _ hs]
    cases flg with
    | false =>
      rw [step0_setMotor_detached, Bool.or_false]
      rfl
    | true =>
      rw [step0_setMotor_granted (hgrant rfl), Bool.or_true]
      rfl
  · exact exec_of_step0_raised hs (step0_setMotor_of_invalid (SlotId.ofField_eq_none_iff.2 hslot) dir flg s)
      (by decide)
  · rintro id rfl hgrant
    rw [exec_of_step0 _ hs, step0_setMotor_refused hgrant, Step0.close, State.raise_setup]
    rfl

/-- RESULT of GET_MOTOR field by field (R115). -/
theorem resultWord_fields (num : BitVec 3) (v : Slot) :
    (resultWord num v).getLsbD 0 = true ∧ (resultWord num v).getLsbD 1 = v.dir.bit ∧
      (resultWord num v).extractLsb' 2 2 = v.run.code ∧ (resultWord num v).getLsbD 4 = v.line ∧
      (resultWord num v).extractLsb' 5 3 = 0 ∧ (resultWord num v).extractLsb' 8 3 = num ∧
      (resultWord num v).extractLsb' 11 21 = 0 := by
  simp (disch := decide) only [resultWord, BitVec.getLsbD_append, BitVec.getLsbD_ofBool,
    BitVec.extractLsb'_append_eq_of_le, BitVec.extractLsb'_append_eq_of_add_le]
  simp

theorem State.occupied_num {s : State} {id : SlotId} (h : (s.slots.get id).occ = true) :
    s.occupied id.num = some id :=
  State.occupied_eq_some.2 ⟨rfl, h⟩

/-- Settles O22: the opcode's row, and step 0 by the occupancy check. -/
theorem getMotorReadsOccupant : Obligations.GetMotorReadsOccupant := by
  unfold Obligations.GetMotorReadsOccupant
  refine ⟨fun _ => OpcodeRow.getMotor.decodeWord_of_mask, fun s c hs => ⟨fun id ho => ?_, fun slot hslot => ?_⟩⟩
  · refine ⟨resultWord id.num (s.slots.get id), ?_, resultWord_fields _ _⟩
    have h0 : step0 (.getMotor id.num) s = .done false { s with result := resultWord id.num (s.slots.get id) } := by
      simp only [step0, getMotorBody, State.occupied_num ho]
    rw [exec_of_step0 _ hs, h0]
    rfl
  · have h0 : step0 (.getMotor slot) s = .raised .idxNotFound s := by
      simp only [step0, getMotorBody, State.occupied_eq_none.2 hslot]
    exact exec_of_step0_raised hs h0 (by decide)

/-! ### The pin writes of a push (R101, R142) -/

theorem lt_of_pushWrites_some {b : Byte} {j : Nat} {e : Pin × Drive} (h : (pushWrites b)[j]? = some e) : j < 26 :=
  pushWrites_length b ▸ (List.getElem?_eq_some_iff.1 h).1

/-- Every serializing command has the pin writes of the push as its steps 1 to 26; the last of them ends a command of 27
steps. -/
theorem pushSteps_of_stepCount {i : Instr} {drives : Bool} (hn : stepCount i = if drives then 28 else 27) :
    PushSteps i drives := by
  intro s c j p lvl hs hw
  have hj := lt_of_pushWrites_some hw
  have hp := State.phase_of_exec hs
  rw [← State.pushWrite_eq hw]
  constructor
  · intro h
    have hlt : j + 2 < stepCount i := by
      cases drives <;> simp at h hn <;> omega
    rw [exec_next.2 (.inr (.inl ⟨j, hp, hlt, rfl⟩)), State.advance,
      State.word_of_exec i ((s.pushWrite_seq j).trans hs), State.phase_of_exec ((s.pushWrite_seq j).trans hs)]
  · rintro rfl rfl
    exact exec_next.2 (.inr (.inr (.inl ⟨hn, hp, rfl⟩)))

/-! ### SET_DIRECTION and INVERT_DIRECTION (R116, R117) -/

theorem step0_setDirection_of_bound {s : State} {id : SlotId} (ho : (s.slots.get id).occ = true)
    (hb : s.regBound = true) (dir : Dir) : step0 (.setDirection id.num dir) s = .push (s.turn id dir) := by
  simp only [step0, setDirectionBody, State.occupied_num ho, hb, if_true]

/-- Step 0 of SET_DIRECTION on an occupied slot with bound lines (R116). -/
theorem exec_setDirection_of_bound {s : State} {c : Word} {id : SlotId} (hs : s.seq = .exec c 0)
    (ho : (s.slots.get id).occ = true) (hb : s.regBound = true) (dir : Dir) :
    exec (.setDirection id.num dir) s = .next { s.turn id dir with seq := .exec c 1 } :=
  exec_of_step0_push hs (step0_setDirection_of_bound ho hb dir) rfl

/-- Settles O23: the opcode's row, step 0 by its checks in order, and the push. -/
theorem setDirectionTurnsAndPushes : Obligations.SetDirectionTurnsAndPushes := by
  unfold Obligations.SetDirectionTurnsAndPushes
  refine ⟨fun _ => OpcodeRow.setDirection.decodeWord_of_mask,
    fun s c dir hs => ⟨?_, fun slot hslot => ?_, fun id ho hb => ?_⟩, fun slot dir => pushSteps_of_stepCount rfl⟩
  · rintro id bank ho hb rfl
    exact exec_setDirection_of_bound hs ho hb dir
  · have h0 : step0 (.setDirection slot dir) s = .raised .idxNotFound s := by
      simp only [step0, setDirectionBody, State.occupied_eq_none.2 hslot]
    exact exec_of_step0_raised hs h0 (by decide)
  · have h0 : step0 (.setDirection id.num dir) s = .raised .cfgRegLines s := by
      simp [step0, setDirectionBody, State.occupied_num ho, hb]
    exact exec_of_step0_raised hs h0 (by decide)

theorem Dir.flip_eq_ite (d : Dir) : Dir.flip d = if d = .cw then .ccw else .cw := by
  cases d <;> rfl

/-- Settles O24: the opcode's row, step 0 with the no-op path before the line check, and the push. -/
theorem invertDirectionFlipsAndPushes : Obligations.InvertDirectionFlipsAndPushes := by
  unfold Obligations.InvertDirectionFlipsAndPushes
  refine ⟨fun _ => OpcodeRow.invertDirection.decodeWord_of_mask,
    fun s c hs => ⟨?_, fun slot hslot => ?_, fun id ho hb => ?_⟩, fun slot => pushSteps_of_stepCount rfl⟩
  · rintro id bank ho hb rfl
    have h0 : step0 (.invertDirection id.num) s = .push (s.turn id (Dir.flip (s.slots.get id).dir)) := by
      simp only [step0, invertDirectionBody, State.occupied_num ho, hb, if_true]
    rw [← Dir.flip_eq_ite]
    exact exec_of_step0_push hs h0 rfl
  · have h0 : step0 (.invertDirection slot) s = .done true s := by
      simp only [step0, invertDirectionBody, State.occupied_eq_none.2 hslot]
    rw [exec_of_step0 _ hs, h0]
    rfl
  · have h0 : step0 (.invertDirection id.num) s = .raised .cfgRegLines s := by
      simp [step0, invertDirectionBody, State.occupied_num ho, hb]
    exact exec_of_step0_raised hs h0 (by decide)

/-! ### What the direction commands leave alone (R118) -/

/-- The channels, and of every slot all but the direction, are as before. -/
structure SameDrive (s t : State) : Prop where
  chans : t.chans = s.chans
  time : t.time = s.time
  run : ∀ id, (t.slots.get id).run = (s.slots.get id).run
  line : ∀ id, (t.slots.get id).line = (s.slots.get id).line
  occ : ∀ id, (t.slots.get id).occ = (s.slots.get id).occ

theorem SameDrive.of_slots_eq {s t : State} (hs : t.slots = s.slots) (hc : t.chans = s.chans)
    (ht : t.time = s.time) : SameDrive s t where
  chans := hc
  time := ht
  run id := by rw [hs]
  line id := by rw [hs]
  occ id := by rw [hs]

/-- Turning a motor writes its direction only (R116). -/
theorem SameDrive.turn (s : State) (id : SlotId) (d : Dir) : SameDrive s (s.turn id d) := by
  have hget (j : SlotId) :
      (s.turn id d).slots.get j = { s.slots.get j with dir := ((s.turn id d).slots.get j).dir } := by
    rw [State.turn_slots, Slots.get_set]
    split
    · next h => rw [h]
    · rfl
  exact ⟨rfl, rfl, fun j => by rw [hget j], fun j => by rw [hget j], fun j => by rw [hget j]⟩

theorem SameDrive.advance {s t : State} (h : SameDrive s t) (i : Instr) : SameDrive s (t.advance i) :=
  ⟨h.chans, h.time, h.run, h.line, h.occ⟩

/-- A motor output follows what a `SameDrive` step leaves (R35). -/
theorem SameDrive.outLevel {s t : State} (h : SameDrive s t) (id : SlotId) : t.outLevel id = s.outLevel id :=
  State.outLevel_congr (h.run id) (h.line id) (by rw [h.chans]) h.time

/-- Settles O25: step 0 turns a motor or leaves the bank, and a pin write leaves it. -/
theorem directionLeavesStatusAlone : Obligations.DirectionLeavesStatusAlone := by
  unfold Obligations.DirectionLeavesStatusAlone
  intro i s t h hi
  suffices hsame : SameDrive s t from
    ⟨hsame.chans, fun id => ⟨hsame.run id, hsame.line id, hsame.occ id, hsame.outLevel id⟩⟩
  obtain ⟨z, -, hc, rfl⟩ | ⟨j, -, -, rfl⟩ | ⟨-, -, rfl⟩ | ⟨hn, -, -⟩ := exec_next_case h
  · cases hc with
    | bound | detached | angle => simp at hi
    | turn id | flip id => exact (SameDrive.turn s id _).advance _
    | _ => exact .of_slots_eq rfl rfl rfl
  · exact .of_slots_eq (by simp) (by simp) (by simp)
  · exact .of_slots_eq (by simp) (by simp) (by simp)
  · obtain rfl | ⟨slot, rfl⟩ | ⟨slot, d, rfl⟩ | ⟨slot, rfl⟩ := hi <;> simp [stepCount] at hn

end Sys2Proof.Machine
end

section
/-! The push of the direction byte: each pin write takes it one write further (R142, R145), also over whole clock steps
while the host reads (R146, R150), and with it SET_DIRECTION from its CMD write to its end (R116, R269). -/

namespace Sys2Proof.Machine

open Sys2Proof.Safety

/-! ### The pin writes by their numbers (R142) -/

theorem pushWrites_clock_low (b : Byte) {i : Nat} (hi : i < 8) :
    (pushWrites b)[3 * i + 1]? = some (.srclk, .l) := by
  interval_cases i <;> rfl

theorem pushWrites_data (b : Byte) {i : Nat} (hi : i < 8) :
    (pushWrites b)[3 * i + 2]? = some (.ser, bitLvl b (7 - i)) := by
  interval_cases i <;> rfl

theorem pushWrites_clock_high (b : Byte) {i : Nat} (hi : i < 8) :
    (pushWrites b)[3 * i + 3]? = some (.srclk, .h) := by
  interval_cases i <;> rfl

/-- The first pin write lowers the latch, three writes clock in each bit, and the last raises the latch. -/
theorem pushWrite_number_cases {m : Nat} (hm : m < 26) :
    m = 0 ∨ (∃ i < 8, m = 3 * i + 1 ∨ m = 3 * i + 2 ∨ m = 3 * i + 3) ∨ m = 25 := by
  by_cases hend : m = 0 ∨ m = 25
  · exact hend.imp_right .inr
  · exact .inr (.inl ⟨(m - 1) / 3, by omega, by omega⟩)

/-! ### The chain after one more bit (R145) -/

theorem bitLvl_eq_h {b : Byte} {i : Nat} : bitLvl b i = .h ↔ b.getLsbD i = true := by
  cases h : b.getLsbD i <;> simp [bitLvl, h]

/-- A rising SRCLK edge with a bit's level on SER shifts that bit in. -/
theorem shift_bitLvl (chain b : Byte) (i : Nat) :
    ((chain <<< 1) ||| (if bitLvl b i = .h then 1 else 0)) = shiftIn chain (b.getLsbD i) := by
  simp only [shiftIn_eq, bitLvl_eq_h]

/-- With the `i` high bits of `b` in the chain's low bits, one more bit shifted in makes them `i + 1`. -/
theorem shiftIn_high_bits {chain b : Byte} {i : Nat} (hi : i < 8) (h : chain.toNat % 2 ^ i = b.toNat / 2 ^ (8 - i)) :
    (shiftIn chain (b.getLsbD (7 - i))).toNat % 2 ^ (i + 1) = b.toNat / 2 ^ (8 - (i + 1)) := by
  refine Nat.eq_of_testBit_eq fun j => ?_
  rw [Nat.testBit_mod_two_pow, Nat.testBit_div_two_pow, BitVec.testBit_toNat, BitVec.testBit_toNat]
  cases j with
  | zero => simp [-BitVec.getLsbD_eq_getElem]
  | succ j =>
    have hj := congrArg (Nat.testBit · j) h
    simp only [Nat.testBit_mod_two_pow, Nat.testBit_div_two_pow, BitVec.testBit_toNat] at hj
    have hidx : j + 1 + (8 - (i + 1)) = j + (8 - i) := by omega
    rw [getLsbD_shiftIn_succ, hidx, ← hj]
    by_cases hji : j < i
    · have hj7 : j < 7 := by omega
      simp [hji, hj7]
    · simp [hji]

/-! ### What the bus and a pin write leave of the push's fields -/

@[simp] theorem State.serveBus_serLvl (s : State) : s.serveBus.serLvl = s.serLvl := by
  rw [s.serveBus_frame]

@[simp] theorem State.serveBus_clkLvl (s : State) : s.serveBus.clkLvl = s.clkLvl := by
  rw [s.serveBus_frame]

@[simp] theorem State.serveBus_latLvl (s : State) : s.serveBus.latLvl = s.latLvl := by
  rw [s.serveBus_frame]

@[simp] theorem State.serveBus_trace (s : State) : s.serveBus.trace = s.trace := by
  rw [s.serveBus_frame]

@[simp] theorem State.serveBus_diag (s : State) : s.serveBus.diag = s.diag := by
  rw [s.serveBus_frame]

@[simp] theorem State.serveBus_setupFault (s : State) : s.serveBus.setupFault = s.setupFault := by
  rw [s.serveBus_frame]

@[simp] theorem State.serveBus_result (s : State) : s.serveBus.result = s.result := by
  rw [s.serveBus_frame]

theorem State.pinWrite_trace (s : State) (p : Pin) (lvl : Drive) :
    (s.pinWrite p lvl).trace = s.trace ++ [Event.pin p lvl] := by
  rw [s.pinWrite_frame]

end Sys2Proof.Machine

namespace Sys2Proof.Safety

open Sys2Proof.Machine

/-! ### One pin write further -/

/-- Before its first pin write a push shows nothing. -/
theorem pushAt_zero (s : State) : PushAt s 0 where
  latch := by omega
  clock := by omega
  data := by omega
  chain := (Nat.mod_one _).trans (Nat.div_eq_of_lt s.dirByte.isLt).symm
  store := by omega

/-- What the push is at depends on the lines, the external register and the direction byte only. -/
theorem PushAt.congr {s t : State} {m : Nat} (h : PushAt s m) (hlat : t.latLvl = s.latLvl)
    (hclk : t.clkLvl = s.clkLvl) (hser : t.serLvl = s.serLvl) (hd : t.dirByte = s.dirByte)
    (hc : t.srChain = s.srChain) (hst : t.srStore = s.srStore) : PushAt t m where
  latch := by rw [hlat]; exact h.latch
  clock := by rw [hclk]; exact h.clock
  data := by rw [hser, hd]; exact h.data
  chain := by rw [hc, hd]; exact h.chain
  store := by rw [hst, hd]; exact h.store

/-- Between the first and the last pin write the latch is low. -/
theorem PushAt.latLvl_low {s : State} {m : Nat} (h : PushAt s m) (h1 : 1 ≤ m) (hm : m < 26) : s.latLvl = .l :=
  (h.latch h1).trans (if_neg (by omega))

/-- The chain's low bits are the high bits of the direction byte pushed so far (R145). -/
theorem PushAt.chain_bits {s : State} {m i : Nat} (h : PushAt s m) (hi : (m - 1) / 3 = i) :
    s.srChain.toNat % 2 ^ i = s.dirByte.toNat / 2 ^ (8 - i) :=
  hi ▸ h.chain

/-- The push inside its bits: the latch low, the clock high after every third write, SER at the bit while it is clocked
in. -/
theorem PushAt.of_bits {s : State} {m i : Nat} (h2 : 2 ≤ m) (hm : m < 26) (hi : (m - 1) / 3 = i)
    (hlat : s.latLvl = .l) (hclk : s.clkLvl = if (m - 2) % 3 = 2 then .h else .l)
    (hser : (m - 2) % 3 ≠ 0 → s.serLvl = bitLvl s.dirByte (7 - (m - 2) / 3))
    (hchain : s.srChain.toNat % 2 ^ i = s.dirByte.toNat / 2 ^ (8 - i)) : PushAt s m where
  latch _ := hlat.trans (if_neg (by omega)).symm
  clock _ := by
    have hne : m ≠ 26 := by omega
    simp only [hclk, hne, false_or]
  data _ hne _ := hser hne
  chain := hi.symm ▸ hchain
  store := by omega

/-- The first pin write lowers the latch. -/
theorem PushAt.latch_low {s : State} (hb : s.regBound = true) : PushAt (s.pushWrite 0) 1 := by
  rw [State.pushWrite_eq (p := .rclk) (lvl := .l) rfl, State.pinWrite_rclk hb]
  exact ⟨fun _ => rfl, by omega, by omega, (pushAt_zero s).chain, by omega⟩

/-- A bit's first write lowers the clock. -/
theorem PushAt.clock_low {s : State} {i : Nat} (h : PushAt s (3 * i + 1)) (hi : i < 8) (hb : s.regBound = true) :
    PushAt (s.pushWrite (3 * i + 1)) (3 * i + 2) := by
  rw [State.pushWrite_eq (pushWrites_clock_low _ hi), State.pinWrite_srclk hb, if_neg (by simp)]
  exact .of_bits (i := i) (by omega) (by omega) (by omega) (h.latLvl_low (by omega) (by omega))
    (if_neg (by omega)).symm (by omega) (h.chain_bits (by omega))

/-- A bit's second write puts it on SER. -/
theorem PushAt.data_out {s : State} {i : Nat} (h : PushAt s (3 * i + 2)) (hi : i < 8) :
    PushAt (s.pushWrite (3 * i + 2)) (3 * i + 3) := by
  have hclk : s.clkLvl = .l := (h.clock (by omega)).trans (if_neg (by omega))
  have hbit : (3 * i + 3 - 2) / 3 = i := by omega
  rw [State.pushWrite_eq (pushWrites_data _ hi), State.pinWrite_ser]
  exact .of_bits (i := i) (by omega) (by omega) (by omega) (h.latLvl_low (by omega) (by omega))
    (hclk.trans (if_neg (by omega)).symm) (fun _ => by rw [hbit]) (h.chain_bits (by omega))

/-- A bit's third write raises the clock, which shifts the bit in. -/
theorem PushAt.clock_high {s : State} {i : Nat} (h : PushAt s (3 * i + 3)) (hi : i < 8) (hb : s.regBound = true) :
    PushAt (s.pushWrite (3 * i + 3)) (3 * i + 4) := by
  have hclk : s.clkLvl = .l := (h.clock (by omega)).trans (if_neg (by omega))
  have hbit : (3 * i + 3 - 2) / 3 = i := by omega
  have hbit' : (3 * i + 4 - 2) / 3 = i := by omega
  have hser : s.serLvl = bitLvl s.dirByte (7 - i) := hbit ▸ h.data (by omega) (by omega) (by omega)
  rw [State.pushWrite_eq (pushWrites_clock_high _ hi), State.pinWrite_srclk hb, if_pos ⟨hclk, rfl⟩, hser, shift_bitLvl]
  exact .of_bits (i := i + 1) (by omega) (by omega) (by omega) (h.latLvl_low (by omega) (by omega))
    (if_pos (by omega)).symm (fun _ => by rw [hbit'])
    (shiftIn_high_bits hi (h.chain_bits (by omega)))

/-- The last pin write raises the latch, which copies the whole chain. -/
theorem PushAt.latch_high {s : State} (h : PushAt s 25) (hb : s.regBound = true) : PushAt (s.pushWrite 25) 26 := by
  have hchain : s.srChain = s.dirByte := by
    refine BitVec.eq_of_toNat_eq ?_
    have hbits : s.srChain.toNat % 2 ^ 8 = s.dirByte.toNat / 2 ^ 0 := h.chain
    rwa [Nat.mod_eq_of_lt s.srChain.isLt, Nat.pow_zero, Nat.div_one] at hbits
  rw [State.pushWrite_eq (p := .rclk) (lvl := .h) rfl, State.pinWrite_rclk hb,
    if_pos ⟨h.latLvl_low (by omega) (by omega), rfl⟩]
  exact ⟨fun _ => rfl, fun _ => h.clock (by omega), by omega, h.chain, fun _ => hchain⟩

/-- On bound lines each pin write of the push takes it one write further. -/
theorem PushAt.pushWrite {s : State} {m : Nat} (h : PushAt s m) (hm : m < 26) (hb : s.regBound = true) :
    PushAt (s.pushWrite m) (m + 1) := by
  obtain rfl | ⟨i, hi, rfl | rfl | rfl⟩ | rfl := pushWrite_number_cases hm
  · exact .latch_low hb
  · exact h.clock_low hi hb
  · exact h.data_out hi
  · exact h.clock_high hi hb
  · exact h.latch_high hb

/-! ### A push since its start -/

/-- `t` is `s` with the first `m` pin writes of the push of its direction byte made: what else a push leaves alone is as
in `s`. -/
structure Pushed (s t : State) (m : Nat) : Prop where
  push : PushAt t m
  trace : t.trace = s.trace ++ ((pushWrites s.dirByte).take m).map fun e => Event.pin e.1 e.2
  slots : t.slots = s.slots
  chans : t.chans = s.chans
  dirByte : t.dirByte = s.dirByte
  regBound : t.regBound = s.regBound
  period : t.period = s.period
  width : t.width = s.width
  servoBound : t.servoBound = s.servoBound
  servoActive : t.servoActive = s.servoActive
  servoAngle : t.servoAngle = s.servoAngle
  result : t.result = s.result
  setupFault : t.setupFault = s.setupFault

theorem Pushed.zero (s : State) : Pushed s s 0 :=
  ⟨pushAt_zero s, (List.append_nil _).symm, rfl, rfl, rfl, rfl, rfl, rfl, rfl, rfl, rfl, rfl, rfl⟩

/-- A push does not read the sequencer, ERR or DIAG. -/
theorem Pushed.withStatus {s t : State} {m : Nat} (h : Pushed s t m) (q : Seq) (e : BitVec 4) (d : Bool) :
    Pushed s { t with seq := q, err := e, diag := d } m :=
  { h with push := h.push.congr rfl rfl rfl rfl rfl rfl }

/-- The clock and the bus leave a running command's push where it is (R66). -/
theorem Pushed.clockBus {s t : State} {m : Nat} (h : Pushed s t m) (hbusy : t.busy = true) :
    Pushed s t.beginClock.serveBus m := by
  obtain ⟨-, hperiod, hwidth⟩ := State.serveBus_busy (s := t.beginClock) hbusy
  exact {
    push := h.push.congr (by simp) (by simp) (by simp) (by simp) (by simp) (by simp)
    trace := by simp [h.trace]
    slots := by simp [h.slots]
    chans := by simp [h.chans]
    dirByte := by simp [h.dirByte]
    regBound := by simp [h.regBound]
    period := hperiod.trans h.period
    width := hwidth.trans h.width
    servoBound := by simp [h.servoBound]
    servoActive := by simp [h.servoActive]
    servoAngle := by simp [h.servoAngle]
    result := by simp [h.result]
    setupFault := by simp [h.setupFault] }

/-- On bound lines the next pin write takes the push one write further and appends its event (R150). -/
theorem Pushed.pushWrite {s t : State} {m : Nat} (h : Pushed s t m) (hm : m < 26) (hb : s.regBound = true) :
    Pushed s (t.pushWrite m) (m + 1) where
  push := h.push.pushWrite hm (h.regBound.trans hb)
  trace := by
    obtain ⟨p, lvl, hw⟩ := pushWrites_some s.dirByte hm
    have hw' : (pushWrites t.dirByte)[m]? = some (p, lvl) := h.dirByte ▸ hw
    rw [State.pushWrite_eq hw', State.pinWrite_trace, h.trace, List.take_add_one, hw]
    simp
  slots := by simp [h.slots]
  chans := by simp [h.chans]
  dirByte := by simp [h.dirByte]
  regBound := by simp [h.regBound]
  period := by simp [h.period]
  width := by simp [h.width]
  servoBound := by simp [h.servoBound]
  servoActive := by simp [h.servoActive]
  servoAngle := by simp [h.servoAngle]
  result := by simp [h.result]
  setupFault := by simp [h.setupFault]

/-! ### A push over whole clock steps (R146) -/

/-- A host whose every access fits the bus is not refused (R62). -/
theorem busRefusal_of_goodHost {s : State} (h : GoodHost s) : s.busRefusal = none := by
  unfold GoodHost at h
  cases hhost : s.host with
  | nil => simp [State.busRefusal, hhost]
  | cons a rest =>
    have ha : goodAccess a = true := h a (by simp [hhost])
    cases a with
    | read addr width => exact (State.busRefusal_of_read hhost).trans (Option.isNone_iff_eq_none.1 ha)
    | write addr width v => exact (State.busRefusal_of_write hhost).trans (Option.isNone_iff_eq_none.1 ha)
    | idle => simp [State.busRefusal, hhost]
    | wait => simp [State.busRefusal, hhost]

/-- The queue is served from its head, so a good host stays one (R67). -/
theorem GoodHost.step {s t : State} (h : GoodHost s) (hst : step s = .next t) : GoodHost t := by
  obtain ⟨hhost, -⟩ := step_host_busRdata hst
  intro a ha
  rw [hhost] at ha
  obtain hq | hq := s.beginClock.serveBus_host <;> rw [hq] at ha
  · exact h a ha
  · exact h a (List.mem_of_mem_tail ha)

/-- After `m` clock steps of a push that started in `s`: the command at its next step, STATUS not yet written, the host
good and `n` more clock steps without a reset. -/
structure MidPush (s t : State) (c : Word) (m n : Nat) : Prop where
  pushed : Pushed s t m
  seq : t.seq = .exec c (m + 1)
  err : t.err = s.err
  diag : t.diag = s.diag
  noReset : NoReset t n
  goodHost : GoodHost t

/-- The next clock step of a push runs the command's step. -/
theorem MidPush.step_eq {s t : State} {c : Word} {m n : Nat} (h : MidPush s t c m (n + 1)) :
    step t = exec (decodeWord c) t.beginClock.serveBus :=
  step_of_exec (noReset_succ h.noReset).1 (busRefusal_of_goodHost h.goodHost) (serveBus_seq_of_exec h.seq)

/-- The pin write of the next clock step, before the sequencer moves. -/
theorem MidPush.pushWrite {s t : State} {c : Word} {m n : Nat} (h : MidPush s t c m (n + 1)) (hm : m < 26)
    (hb : s.regBound = true) : Pushed s (t.beginClock.serveBus.pushWrite m) (m + 1) :=
  (h.pushed.clockBus (State.busy_of_exec h.seq)).pushWrite hm hb

/-- A clock step of a push that is not the command's last. -/
theorem MidPush.next {s t : State} {c : Word} {m n : Nat} (h : MidPush s t c m (n + 1))
    (hm : m + 2 < stepCount (decodeWord c)) (hb : s.regBound = true) :
    ∃ u, step t = .next u ∧ MidPush s u c (m + 1) n := by
  have hm26 : m < 26 := by
    have := stepCount_cases (decodeWord c)
    omega
  have hseq := serveBus_seq_of_exec h.seq
  obtain ⟨hrst, hnext⟩ := noReset_succ h.noReset
  have hst : step t = .next ((t.beginClock.serveBus.pushWrite m).advance (decodeWord c)) :=
    h.step_eq.trans (exec_next.2 (.inr (.inl ⟨m, State.phase_of_exec hseq, hm, rfl⟩)))
  obtain ⟨-, -, hclk, -⟩ := step_clock hrst hst
  exact ⟨_, hst, {
    pushed := (h.pushWrite hm26 hb).withStatus _ _ _
    seq := State.advance_seq_of_exec _ ((State.pushWrite_seq _ m).trans hseq)
    err := by simp [h.err]
    diag := by simp [h.diag]
    noReset := hnext _ hclk
    goodHost := h.goodHost.step hst }⟩

/-- From step 1 of a serializing command, `m` clock steps make `m` pin writes, while the command has further steps. -/
theorem exists_run_midPush {s : State} {c : Word} (hg : GoodHost s) (hs : s.seq = .exec c 1)
    (hb : s.regBound = true) {m n : Nat} (hm : m + 1 < stepCount (decodeWord c)) (hr : NoReset s (m + n)) :
    ∃ t, Host.Core.run Sys2Proof.core m s = .next t ∧ MidPush s t c m n := by
  induction m generalizing n with
  | zero => exact ⟨s, rfl, .zero s, hs, rfl, rfl, Nat.zero_add n ▸ hr, hg⟩
  | succ m ih =>
    obtain ⟨t, hrun, hmid⟩ := ih (n := n + 1) (by omega) (by rwa [Nat.add_right_comm] at hr)
    obtain ⟨u, hst, hmid'⟩ := hmid.next hm hb
    exact ⟨u, (run_succ hrun).trans hst, hmid'⟩

/-- The 26 pin writes of a command of 27 steps, from its step 1 to its end (R146, R269). -/
theorem exists_run_push_to_end {s : State} {c : Word} (hg : GoodHost s) (hr : NoReset s 26)
    (hs : s.seq = .exec c 1) (hb : s.regBound = true) (hn : stepCount (decodeWord c) = 27) :
    ∃ t, Host.Core.run Sys2Proof.core 26 s = .next t ∧ Pushed s t 26 ∧ t.seq = .idle ∧ t.err = 0 ∧
      t.diag = false := by
  obtain ⟨t, hrun, hmid⟩ := exists_run_midPush (m := 25) (n := 1) hg hs hb (by omega) hr
  have hseq := serveBus_seq_of_exec hmid.seq
  have hst : step t = .next ((t.beginClock.serveBus.pushWrite 25).finish false) :=
    hmid.step_eq.trans (exec_next.2 (.inr (.inr (.inl ⟨hn, State.phase_of_exec hseq, rfl⟩))))
  exact ⟨_, (run_succ hrun).trans hst, (hmid.pushWrite (by decide) hb).withStatus _ _ _, rfl, rfl, rfl⟩

/-! ### SET_DIRECTION (R116) -/

/-- The clock step that accepts a SET_DIRECTION on an occupied slot with bound lines turns the motor (R116; log 2). -/
theorem step_of_offered_setDirection {s : State} {w : Word} {rest : List Access} {id : SlotId} {d : Dir}
    (hr : s.inputs.rst = false) (h : Offered s w rest) (hw : decodeWord w = .setDirection id.num d)
    (ho : (s.slots.get id).occ = true) (hb : s.regBound = true) :
    step s = .next { s.beginClock.turn id d with host := rest, seq := .exec w 1 } := by
  rw [step_of_offered hr h, hw]
  exact exec_setDirection_of_bound (s := { s.beginClock with host := rest, seq := .exec w 0 }) rfl ho hb d

/-- Settles O39: the accepting clock step turns the motor, and 26 more push the new byte. -/
theorem setDirectionRunsInTwentySevenSteps : Obligations.SetDirectionRunsInTwentySevenSteps := by
  unfold Obligations.SetDirectionRunsInTwentySevenSteps
  intro s w rest id d hoffer hw ho hb hreset hgood
  obtain ⟨hrst, hnext⟩ := noReset_succ hreset
  have hst := step_of_offered_setDirection hrst hoffer hw ho hb
  obtain ⟨t, hrun, hpush, hseq, herr, hdiag⟩ :=
    exists_run_push_to_end (c := w) (hgood.step hst) (hnext _ rfl) rfl hb (by rw [hw]; rfl)
  have hbyte : t.dirByte = encodeDirs t.slots := by
    rw [hpush.dirByte, hpush.slots]
    rfl
  exact ⟨t, (run_next hst 26).trans hrun, by simp [State.busy, hseq], herr, hdiag, hpush.slots, hbyte,
    hpush.push.store rfl, hpush.chans, by rw [hpush.dirByte]; exact hpush.trace⟩

end Sys2Proof.Safety
end

section
/-! Every step keeps the push in step with the sequencer (R142, R145, R146): the clock and the bus leave the push of a
running command where it is, and a command step starts a push, takes it one write further, or ends the command. -/

namespace Sys2Proof.Machine

/-- A command past its step 0 was in the sequencer before the bus was served: what the bus accepts is at step 0 (R65,
R66). -/
theorem seq_of_serveBus_exec {s : State} {c : Word} {k : Nat} (h : s.beginClock.serveBus.seq = .exec c k)
    (hk : k ≠ 0) : s.seq = .exec c k := by
  cases hs : s.seq with
  | idle =>
    obtain hi | ⟨w, hw, -⟩ := State.serveBus_idle (s := s.beginClock) hs
    · rw [hi] at h
      cases h
    · rw [hw] at h
      cases h
      exact absurd rfl hk
  | exec c' k' => rw [← h, serveBus_seq_of_exec hs]

end Sys2Proof.Machine

namespace Sys2Proof.Safety

open Sys2Proof.Machine

theorem pushProgress_of_idle {s : State} (h : s.seq = .idle) : PushProgress s := by
  simp [PushProgress, h]

theorem pushProgress_iff_of_exec {s : State} {c : Word} {k : Nat} (h : s.seq = .exec c k) :
    PushProgress s ↔ PushAt s (k - 1) := by
  simp only [PushProgress, h]

/-- The clock and the bus write nothing that a push is at (R64 to R66). -/
theorem PushAt.clockBus {s : State} {m : Nat} (h : PushAt s m) : PushAt s.beginClock.serveBus m :=
  h.congr (by simp) (by simp) (by simp) (by simp) (by simp) (by simp)

/-- A command step keeps the push in step with the sequencer; past step 0 it relies on bound lines and on the push so
far. -/
theorem exec_pushProgress {i : Instr} {s t : State} (h : exec i s = .next t)
    (hs : s.phase ≠ 0 → s.regBound = true ∧ PushAt s (s.phase - 1)) : PushProgress t := by
  obtain ⟨z, hp, hc, rfl⟩ | ⟨j, hp, hj, rfl⟩ | ⟨-, -, rfl⟩ | ⟨-, -, rfl⟩ := exec_next_case h
  · cases z with
    | raised e u => exact pushProgress_of_idle rfl
    | done d u => exact pushProgress_of_idle rfl
    | push u =>
      obtain ⟨-, -, hseq, -⟩ := step0_push hc
      refine (pushProgress_iff_of_exec (State.advance_seq_congr i hseq)).2 ?_
      rw [hp]
      exact pushAt_zero _
  · obtain ⟨hb, hpush⟩ := hs (by omega)
    rw [hp, Nat.add_sub_cancel] at hpush
    have hj26 : j < 26 := by
      have := stepCount_cases i
      omega
    rw [pushProgress_iff_of_exec (State.advance_seq_congr i (s.pushWrite_seq j)), hp]
    exact (hpush.pushWrite hj26 hb).congr rfl rfl rfl rfl rfl rfl
  · exact pushProgress_of_idle rfl
  · exact pushProgress_of_idle rfl

/-- Settles O60: after a reset or an idle step the sequencer is Idle; a command past its step 0 was running before, on
bound lines and with its push in step. -/
theorem stepKeepsPushProgress : Obligations.StepKeepsPushProgress := by
  unfold Obligations.StepKeepsPushProgress
  intro s t hinv hpush h
  obtain ⟨-, -, rfl⟩ | ⟨-, -, hidle, rfl⟩ | ⟨-, -, c, k, hexec, ht⟩ := step_next h
  · exact pushProgress_of_idle rfl
  · exact pushProgress_of_idle hidle
  · refine exec_pushProgress ht fun hk => ?_
    rw [State.phase_of_exec hexec] at hk ⊢
    have hseq := seq_of_serveBus_exec hexec hk
    obtain ⟨-, -, hb, -⟩ := (seqOk_iff_of_exec hseq).1 hinv.seq
    exact ⟨by simpa using hb, ((pushProgress_iff_of_exec hseq).1 hpush).clockBus⟩

end Sys2Proof.Safety
end

section
/-! The external register over whole clock steps (R145, R147): no operation but a pin write makes an edge, and a pin
write makes at most one. -/

namespace Sys2Proof.Machine

open Sys2Proof.Safety

/-! ### Steps without an edge -/

/-- A line that is not left H has no edge. -/
theorem rises_of_not_high {s t : State} {p : Pin} (h : t.pinLevel p ≠ .h) : rises s t p = false := by
  simp [rises, h]

/-- A line written L has no edge. -/
theorem rises_setLvl_low (s : State) (p : Pin) : rises s (s.setLvl p .l) p = false := by
  cases hs : s.regBound with
  | false => exact rises_of_unbound hs _ p
  | true => simp [← Bool.not_eq_true, rises_setLvl_same hs]

/-- The levels on the pins depend on the lines and their binding only (R35). -/
theorem State.pinLevel_congr {s t : State} (hb : t.regBound = s.regBound) (hser : t.serLvl = s.serLvl)
    (hclk : t.clkLvl = s.clkLvl) (hlat : t.latLvl = s.latLvl) (p : Pin) : t.pinLevel p = s.pinLevel p := by
  cases p <;> simp [State.pinLevel, State.lvl, hb, hser, hclk, hlat]

/-- The external register and the pins it sees are in `t` as in `s`. -/
structure SameRegister (s t : State) : Prop where
  pins : ∀ p, t.pinLevel p = s.pinLevel p
  chain : t.srChain = s.srChain
  store : t.srStore = s.srStore

theorem SameRegister.refl (s : State) : SameRegister s s :=
  ⟨fun _ => rfl, rfl, rfl⟩

theorem SameRegister.symm {s t : State} (h : SameRegister s t) : SameRegister t s :=
  ⟨fun p => (h.pins p).symm, h.chain.symm, h.store.symm⟩

theorem SameRegister.of_lines {s t : State} (hb : t.regBound = s.regBound) (hser : t.serLvl = s.serLvl)
    (hclk : t.clkLvl = s.clkLvl) (hlat : t.latLvl = s.latLvl) (hc : t.srChain = s.srChain)
    (hst : t.srStore = s.srStore) : SameRegister s t :=
  ⟨State.pinLevel_congr hb hser hclk hlat, hc, hst⟩

theorem SameRegister.clockBus (s : State) : SameRegister s s.beginClock.serveBus where
  pins := State.pinLevel_congr (by simp) (by simp) (by simp) (by simp)
  chain := by rw [s.beginClock.serveBus_frame]; rfl
  store := by rw [s.beginClock.serveBus_frame]; rfl

/-! ### The reaction to the edges (R145) -/

/-- The external register of `t` is what the edges from `s` to `t` make of the one of `s`, and at most one of its two
clocks has an edge. -/
structure Reacts (s t : State) : Prop where
  chain : t.srChain = nextChain s t
  store : t.srStore = nextStore s t
  one : ¬(rises s t .srclk = true ∧ rises s t .rclk = true)

/-- Without an edge the external register keeps its content. -/
theorem Reacts.of_no_edge {s t : State} (h : ∀ p, rises s t p = false) (hc : t.srChain = s.srChain)
    (hst : t.srStore = s.srStore) : Reacts s t where
  chain := by rw [nextChain_of_no_edge (h _), hc]
  store := by rw [nextStore_of_no_edge (h _), hst]
  one hboth := by simp [h] at hboth

theorem SameRegister.reacts {s t : State} (h : SameRegister s t) : Reacts s t :=
  .of_no_edge (fun p => rises_of_pinLevel_eq (h.pins p)) h.chain h.store

theorem rises_congr {s s' t t' : State} (hs : SameRegister s s') (ht : SameRegister t t') (p : Pin) :
    rises s' t' p = rises s t p := by
  simp only [rises, hs.pins, ht.pins]

/-- A reaction depends on the external register and the pins only. -/
theorem Reacts.congr {s s' t t' : State} (h : Reacts s t) (hs : SameRegister s s') (ht : SameRegister t t') :
    Reacts s' t' where
  chain := by
    rw [ht.chain, h.chain]
    simp only [nextChain, rises_congr hs ht, hs.chain, ht.pins]
  store := by
    rw [ht.store, h.store]
    simp only [nextStore, rises_congr hs ht, hs.chain, hs.store]
  one := by
    simp only [rises_congr hs ht]
    exact h.one

/-- `PinWrite` lets the external register react, and moves one line only (R9). -/
theorem reacts_pinWrite (s : State) (p : Pin) (lvl : Drive) : Reacts s (s.pinWrite p lvl) := by
  have hpins : ∀ q, (s.pinWrite p lvl).pinLevel q = (s.setLvl p lvl).pinLevel q :=
    State.pinLevel_congr rfl rfl rfl rfl
  have hone (q : Pin) (hq : rises s (s.pinWrite p lvl) q = true) : q = p := by
    by_contra hne
    rw [rises_of_pinLevel_eq ((hpins q).trans (s.pinLevel_setLvl_of_ne lvl hne))] at hq
    cases hq
  refine ⟨?_, ?_, fun ⟨hclk, hlat⟩ => absurd ((hone _ hclk).trans (hone _ hlat).symm) (by decide)⟩
  · simp only [nextChain, rises, hpins]
    rfl
  · simp only [nextStore, rises, hpins]
    rfl

theorem reacts_pushWrite (s : State) (j : Nat) : Reacts s (s.pushWrite j) := by
  unfold State.pushWrite
  split
  · exact reacts_pinWrite s _ _
  · exact (SameRegister.refl _).reacts

/-- BIND_REG_LINES drives every line L, so that none rises (R141). -/
theorem reacts_of_lines_low {s t : State} (hser : t.serLvl = .l) (hclk : t.clkLvl = .l) (hlat : t.latLvl = .l)
    (hc : t.srChain = s.srChain) (hst : t.srStore = s.srStore) : Reacts s t := by
  refine .of_no_edge (fun p => rises_of_not_high ?_) hc hst
  cases ht : t.regBound with
  | false => simp [State.pinLevel_of_unbound ht]
  | true => cases p <;> simp [State.pinLevel_of_bound ht, State.lvl, hser, hclk, hlat]

/-- In a command step only a pin write can make an edge. -/
theorem exec_reacts {i : Instr} {s t : State} (h : exec i s = .next t) : Reacts s t := by
  obtain ⟨z, -, hc, rfl⟩ | ⟨j, -, -, rfl⟩ | ⟨-, -, rfl⟩ | ⟨-, -, rfl⟩ := exec_next_case h
  · cases hc with
    | lines => exact reacts_of_lines_low rfl rfl rfl rfl rfl
    | _ => exact SameRegister.reacts (.of_lines rfl rfl rfl rfl rfl rfl)
  · exact (reacts_pushWrite s j).congr (.refl s) (.of_lines rfl rfl rfl rfl rfl rfl)
  · exact (reacts_pushWrite s 25).congr (.refl s) (.of_lines rfl rfl rfl rfl rfl rfl)
  · rw [driveOf_frame]
    exact SameRegister.reacts (.of_lines rfl rfl rfl rfl rfl rfl)

/-- A reset leaves the pins undriven and the external register alone (R261). -/
theorem reacts_applyReset (s : State) : Reacts s s.applyReset :=
  reacts_of_lines_low rfl rfl rfl rfl rfl

/-- In every clock step the external register reacts to the pins: the clock and the bus leave both. -/
theorem step_reacts {s t : State} (h : step s = .next t) : Reacts s t := by
  suffices hr : Reacts s.beginClock.serveBus t from hr.congr (SameRegister.clockBus s).symm (.refl t)
  obtain ⟨-, -, rfl⟩ | ⟨-, -, -, rfl⟩ | ⟨-, -, c, k, -, ht⟩ := step_next h
  · exact reacts_applyReset _
  · exact (SameRegister.refl _).reacts
  · exact exec_reacts ht

/-- Settles O32: every step reacts, and an edge is L before and H after. -/
theorem externalRegisterReacts : Obligations.ExternalRegisterReacts := by
  unfold Obligations.ExternalRegisterReacts
  intro s t h
  obtain ⟨hchain, hstore, hone⟩ := step_reacts h
  simp only [nextChain, nextStore, rises_iff] at hchain hstore hone
  exact ⟨hchain, hstore, hone⟩

/-! ### The outputs during a push (R147) -/

/-- A pin write whose RCLK does not rise leaves the storage register. -/
theorem State.pinWrite_srStore_of_ne_latch_high (s : State) {p : Pin} {lvl : Drive} (h : p ≠ .rclk ∨ lvl = .l) :
    (s.pinWrite p lvl).srStore = s.srStore := by
  by_cases hp : p = .rclk
  · subst hp
    obtain rfl : lvl = .l := h.resolve_left (fun hne => hne rfl)
    exact nextStore_of_no_edge (rises_setLvl_low s .rclk)
  · exact nextStore_setLvl_of_ne s lvl (Ne.symm hp)

/-- Only the push's last pin write raises RCLK (R142). -/
theorem State.pushWrite_srStore {s : State} {j : Nat} (hj : j < 25) : (s.pushWrite j).srStore = s.srStore := by
  obtain rfl | ⟨i, hi, rfl | rfl | rfl⟩ | rfl := pushWrite_number_cases (Nat.lt_succ_of_lt hj)
  · rw [State.pushWrite_eq (p := .rclk) (lvl := .l) rfl, s.pinWrite_srStore_of_ne_latch_high (.inr rfl)]
  · rw [State.pushWrite_eq (pushWrites_clock_low _ hi), s.pinWrite_srStore_of_ne_latch_high (.inl (by decide))]
  · rw [State.pushWrite_eq (pushWrites_data _ hi), s.pinWrite_srStore_of_ne_latch_high (.inl (by decide))]
  · rw [State.pushWrite_eq (pushWrites_clock_high _ hi), s.pinWrite_srStore_of_ne_latch_high (.inl (by decide))]
  · exact absurd hj (by decide)

/-- A command step but step 26, the last pin write, leaves the storage register. -/
theorem exec_srStore {i : Instr} {s t : State} (h : exec i s = .next t) (hp : s.phase ≠ 26) :
    t.srStore = s.srStore := by
  obtain ⟨z, -, hc, rfl⟩ | ⟨j, hj, hlt, rfl⟩ | ⟨-, h26, -⟩ | ⟨-, -, rfl⟩ := exec_next_case h
  · cases hc <;> rfl
  · have := stepCount_cases i
    exact State.pushWrite_srStore (by omega)
  · exact absurd h26 hp
  · rw [driveOf_frame]
    rfl

/-- Settles O34: a reset and the bus leave the storage register, and so does the command's step. -/
theorem outputsStableDuringPush : Obligations.OutputsStableDuringPush := by
  unfold Obligations.OutputsStableDuringPush
  intro s t c k hs _ hk h
  refine Eq.trans ?_ (SameRegister.clockBus s).store
  obtain ⟨-, -, rfl⟩ | ⟨-, -, -, rfl⟩ | ⟨-, -, c', k', -, ht⟩ := step_next h
  · rfl
  · rfl
  · exact exec_srStore ht (by rwa [State.phase_of_exec (serveBus_seq_of_exec hs)])

/-! ### The operands during a command (R151) -/

/-- Past step 0 a command step leaves the direction byte and the binding of the register lines. -/
theorem exec_dirByte_regBound_past_step0 {i : Instr} {s t : State} (h : exec i s = .next t) (hp : s.phase ≠ 0) :
    t.dirByte = s.dirByte ∧ t.regBound = s.regBound := by
  obtain ⟨z, h0, -⟩ | ⟨j, -, -, rfl⟩ | ⟨-, -, rfl⟩ | ⟨-, -, rfl⟩ := exec_next_case h
  · exact absurd h0 hp
  · simp
  · simp
  · rw [driveOf_frame]
    exact ⟨rfl, rfl⟩

/-- Settles O35: while BUSY = 1 the bus writes no operand register, and past step 0 the command writes none of the
four. -/
theorem operandsHoldWhileBusy : Obligations.OperandsHoldWhileBusy := by
  unfold Obligations.OperandsHoldWhileBusy
  intro s t c k hs hk hr h
  have hseq := serveBus_seq_of_exec hs
  obtain ⟨-, hbusP, hbusW⟩ := State.serveBus_busy (s := s.beginClock) (State.busy_of_exec hs)
  obtain ⟨hrst, -⟩ | ⟨-, -, hidle, -⟩ | ⟨-, -, c', k', -, ht⟩ := step_next h
  · exact Bool.noConfusion (hr.symm.trans hrst)
  · rw [hseq] at hidle
    cases hidle
  · obtain ⟨hperiod, hwidth, -⟩ := exec_inputs ht
    obtain ⟨hd, hb⟩ := exec_dirByte_regBound_past_step0 ht
      (by rw [State.phase_of_exec hseq]; exact Nat.ne_of_gt hk)
    exact ⟨by simpa using hd, hperiod.trans hbusP, hwidth.trans hbusW, by simpa using hb⟩

end Sys2Proof.Machine
end

section
/-! The register-line commands and the push: BIND_REG_LINES (R141), SERIALIZE (R144), the 26 pin writes (R143), and the
push as a whole from any content of the external register (R146, R150). -/

namespace Sys2Proof.Machine

open Sys2Proof.Safety

/-! ### BIND_REG_LINES and SERIALIZE -/

theorem step0_bindRegLines_granted {s : State} (h : s.acqGrant = true) :
    step0 .bindRegLines s = .done false s.request.bindLines := by
  simp [step0, bindRegLinesBody, h]

theorem step0_bindRegLines_refused {s : State} (h : s.acqGrant = false) :
    step0 .bindRegLines s = .raised .setup s.request := by
  simp [step0, bindRegLinesBody, h]

/-- Settles O28: the opcode's row, and step 0 by the acquisition. -/
theorem bindRegLinesAcquires : Obligations.BindRegLinesAcquires := by
  unfold Obligations.BindRegLinesAcquires
  refine ⟨fun _ => OpcodeRow.bindRegLines.decodeWord_of_mask, fun s c hs => ⟨fun hg => ?_, fun hg => ?_⟩⟩
  · rw [exec_of_step0 _ hs, step0_bindRegLines_granted hg]
    rfl
  · rw [exec_of_step0 _ hs, step0_bindRegLines_refused hg, Step0.close, State.raise_setup]
    rfl

theorem step0_serialize_of_bound {s : State} (h : s.regBound = true) : step0 .serialize s = .push s := by
  simp [step0, serializeBody, h]

theorem step0_serialize_of_unbound {s : State} (h : s.regBound = false) :
    step0 .serialize s = .raised .cfgRegLines s := by
  simp [step0, serializeBody, h]

/-- Settles O29: the opcode's row, step 0 by the line check, and the push. -/
theorem serializePushesStepByStep : Obligations.SerializePushesStepByStep := by
  unfold Obligations.SerializePushesStepByStep
  exact ⟨fun _ => OpcodeRow.serialize.decodeWord_of_mask,
    fun s c hs => ⟨fun hb => exec_of_step0_push hs (step0_serialize_of_bound hb) rfl,
      fun hb => exec_of_step0_raised hs (step0_serialize_of_unbound hb) (by decide)⟩,
    pushSteps_of_stepCount rfl⟩

/-- Settles O30: the model's list with its bit numbers 7 to 0 written as a reversed range. -/
theorem pushIsTwentySixWrites : Obligations.PushIsTwentySixWrites := by
  unfold Obligations.PushIsTwentySixWrites
  exact fun b => ⟨pushWrites_length b, rfl⟩

end Sys2Proof.Machine

namespace Sys2Proof.Safety

open Sys2Proof.Machine

/-! ### The push as a whole (R146) -/

/-- After all eight bits nothing of the chain's old content is left (R145). -/
theorem PushAt.chain_eq {s : State} {m : Nat} (h : PushAt s m) (hm : (m - 1) / 3 = 8) : s.srChain = s.dirByte := by
  have hbits : s.srChain.toNat % 2 ^ 8 = s.dirByte.toNat / 2 ^ 0 := h.chain_bits hm
  rw [Nat.mod_eq_of_lt s.srChain.isLt, Nat.pow_zero, Nat.div_one] at hbits
  exact BitVec.eq_of_toNat_eq hbits

/-- 26 clock steps from step 1 make the whole push; it ends a command of 27 steps, and one of 28 then stands before its
drive step. -/
theorem exists_run_whole_push {s : State} {c : Word} (hg : GoodHost s) (hr : NoReset s 26) (hs : s.seq = .exec c 1)
    (hb : s.regBound = true) (hn : 27 ≤ stepCount (decodeWord c)) :
    ∃ t, Host.Core.run Sys2Proof.core 26 s = .next t ∧ Pushed s t 26 ∧
      (stepCount (decodeWord c) = 27 → t.seq = .idle ∧ t.err = 0 ∧ t.diag = false) ∧
      (stepCount (decodeWord c) = 28 → t.seq = .exec c 27 ∧ t.err = s.err ∧ t.diag = s.diag) := by
  obtain h1 | h27 | h28 := stepCount_cases (decodeWord c)
  · omega
  · obtain ⟨t, hrun, hpush, hend⟩ := exists_run_push_to_end hg hr hs hb h27
    exact ⟨t, hrun, hpush, fun _ => hend, by omega⟩
  · obtain ⟨t, hrun, hmid⟩ := exists_run_midPush (m := 26) (n := 0) hg hs hb (by omega) hr
    exact ⟨t, hrun, hmid.pushed, by omega, fun _ => ⟨hmid.seq, hmid.err, hmid.diag⟩⟩

/-- Settles O33: what the whole push leaves, field by field. -/
theorem pushLatchesDirectionByte : Obligations.PushLatchesDirectionByte := by
  unfold Obligations.PushLatchesDirectionByte
  intro s c hs hn hb hr hg
  obtain ⟨t, hrun, hpush, h27, h28⟩ := exists_run_whole_push hg hr hs hb hn
  exact ⟨t, hrun, (hpush.push.chain_eq (by decide)).trans hpush.dirByte, (hpush.push.store rfl).trans hpush.dirByte,
    hpush.dirByte, hpush.trace, hpush.slots, hpush.chans, hpush.regBound.trans hb, hpush.period, hpush.width,
    hpush.servoBound, hpush.servoActive, hpush.servoAngle, hpush.result, hpush.setupFault, h27, h28⟩

end Sys2Proof.Safety
end

section
/-! The drive commands step by step (R174, R175): the checks that START and STOP share, their push, and their
drive step. -/

namespace Sys2Proof.Machine

open Sys2Proof.Safety

/-! ### Step 0 of START and STOP -/

theorem step0_start_of_unoccupied {s : State} {slot : BitVec 3} (h : s.occupied slot = none) (flg : Bool) :
    step0 (.start slot flg) s = .raised .idxNotFound s := by
  simp only [step0, startBody, h]

/-- With FLG = 0 the PWM pair is checked before the lines (R174, R232). -/
theorem step0_start_of_invalid_pair {s : State} {id : SlotId} (ho : (s.slots.get id).occ = true)
    (hv : validPwm s.period s.width = false) : step0 (.start id.num false) s = .raised .range s := by
  simp [step0, startBody, State.occupied_num ho, hv]

theorem step0_start_of_valid {s : State} {id : SlotId} {flg : Bool} (ho : (s.slots.get id).occ = true)
    (hv : flg = false → validPwm s.period s.width = true) : step0 (.start id.num flg) s = driveChecks s id := by
  cases flg with
  | true => simp [step0, startBody, State.occupied_num ho]
  | false => simp [step0, startBody, State.occupied_num ho, hv rfl]

theorem step0_stop_of_unoccupied {s : State} {slot : BitVec 3} (h : s.occupied slot = none) :
    step0 (.stop slot) s = .raised .idxNotFound s := by
  simp only [step0, stopBody, h]

theorem step0_stop_of_occupied {s : State} {id : SlotId} (ho : (s.slots.get id).occ = true) :
    step0 (.stop id.num) s = driveChecks s id := by
  simp only [step0, stopBody, State.occupied_num ho]

theorem driveChecks_of_unbound {s : State} (hb : s.regBound = false) (id : SlotId) :
    driveChecks s id = .raised .cfgRegLines s := by
  simp [driveChecks, hb]

theorem driveChecks_of_no_line {s : State} {id : SlotId} (hb : s.regBound = true)
    (hl : (s.slots.get id).line = false) : driveChecks s id = .raised .cfgPin s := by
  simp [driveChecks, hb, hl]

theorem driveChecks_of_ready {s : State} {id : SlotId} (hb : s.regBound = true)
    (hl : (s.slots.get id).line = true) : driveChecks s id = .push s := by
  simp [driveChecks, hb, hl]

/-- Step 0 of a command that has come to the checks of its lines: the register lines, then the motor line. -/
theorem exec_of_driveChecks {i : Instr} {s : State} {c : Word} {id : SlotId} (hs : s.seq = .exec c 0)
    (h : step0 i s = driveChecks s id) :
    (s.regBound = false → exec i s = .next { s with err := 3, diag := false, seq := .idle }) ∧
    (s.regBound = true → (s.slots.get id).line = false →
      exec i s = .next { s with err := 4, diag := false, seq := .idle }) ∧
    (s.regBound = true → (s.slots.get id).line = true → exec i s = .next { s with seq := .exec c 1 }) :=
  ⟨fun hb => exec_of_step0_raised hs (h.trans (driveChecks_of_unbound hb id)) (by decide),
    fun hb hl => exec_of_step0_raised hs (h.trans (driveChecks_of_no_line hb hl)) (by decide),
    fun hb hl => exec_of_step0_push hs (h.trans (driveChecks_of_ready hb hl)) rfl⟩

/-! ### The drive step -/

theorem startDrive_num (s : State) (id : SlotId) (flg : Bool) :
    startDrive id.num flg s = { s with
      slots := s.slots.set id { s.slots.get id with run := if flg then .running else .pwm }
      chans := s.chans.set id.chan
        (if flg then { s.chans.get id.chan with period := 0, width := 0 }
         else { period := s.period, width := s.width, origin := s.time }) } := by
  rw [startDrive, SlotId.ofField_num]
  cases flg <;> rfl

theorem startDrive_of_invalid {slot : BitVec 3} (h : SlotId.ofField slot = none) (flg : Bool) (s : State) :
    startDrive slot flg s = s := by
  simp only [startDrive, h]

theorem stopDrive_num (s : State) (id : SlotId) : stopDrive id.num s = s.setRun id .idle := by
  simp only [stopDrive, SlotId.ofField_num]

theorem stopDrive_of_invalid {slot : BitVec 3} (h : SlotId.ofField slot = none) (s : State) :
    stopDrive slot s = s := by
  simp only [stopDrive, h]

/-- Step 27 of a command of 28 steps drives the line and ends the command (R101). -/
theorem exec_of_drive {i : Instr} {s : State} {c : Word} (hn : stepCount i = 28) (hs : s.seq = .exec c 27) :
    exec i s = .next ((driveOf i s).finish false) :=
  exec_next.2 (.inr (.inr (.inr ⟨hn, State.phase_of_exec hs, rfl⟩)))

theorem exec_start_drive {s : State} {c : Word} (hs : s.seq = .exec c 27) (id : SlotId) (flg : Bool) :
    exec (.start id.num flg) s = .next ((startDrive id.num flg s).finish false) :=
  exec_of_drive rfl hs

/-- Settles O36: the opcode's row, step 0 by its checks in order, the push, and the drive step. -/
theorem startChecksPushesDrives : Obligations.StartChecksPushesDrives := by
  unfold Obligations.StartChecksPushesDrives
  simp only [← validPwm_iff, Bool.not_eq_true]
  refine ⟨fun _ => OpcodeRow.start.decodeWord_of_mask,
    fun s c flg hs => ⟨fun slot hslot => ?_, fun id ho => ⟨?_, fun hv => ?_⟩⟩,
    fun slot flg => pushSteps_of_stepCount rfl, fun s c id hs => ⟨?_, ?_⟩⟩
  · exact exec_of_step0_raised hs (step0_start_of_unoccupied (State.occupied_eq_none.2 hslot) flg) (by decide)
  · rintro rfl hv
    exact exec_of_step0_raised hs (step0_start_of_invalid_pair ho hv) (by decide)
  · exact exec_of_driveChecks hs (step0_start_of_valid ho hv)
  · rw [exec_start_drive hs, startDrive_num]
    rfl
  · rw [exec_start_drive hs, startDrive_num]
    rfl

/-- Settles O37: the opcode's row, step 0 by its checks in order, the push, and the drive step. -/
theorem stopChecksPushesDrives : Obligations.StopChecksPushesDrives := by
  unfold Obligations.StopChecksPushesDrives
  refine ⟨fun _ => OpcodeRow.stop.decodeWord_of_mask, fun s c hs => ⟨fun slot hslot => ?_, fun id ho => ?_⟩,
    fun slot => pushSteps_of_stepCount rfl, fun s c id hs => ?_⟩
  · exact exec_of_step0_raised hs (step0_stop_of_unoccupied (State.occupied_eq_none.2 hslot)) (by decide)
  · exact exec_of_driveChecks hs (step0_stop_of_occupied ho)
  · rw [exec_of_drive rfl hs, driveOf, stopDrive_num]
    rfl

end Sys2Proof.Machine
end

section
/-! Who writes a slot's run status and channel (R177, R179): every command step leaves both, or is one of the four
writes. -/

namespace Sys2Proof.Machine

open Sys2Proof.Safety

/-- Slot `id` has the same run status and the same channel in `t` as in `s`. -/
structure SameSlotDrive (s t : State) (id : SlotId) : Prop where
  run : (t.slots.get id).run = (s.slots.get id).run
  chan : t.chans.get id.chan = s.chans.get id.chan

theorem SameSlotDrive.of_eq {s t : State} (hs : t.slots = s.slots) (hc : t.chans = s.chans) (id : SlotId) :
    SameSlotDrive s t id :=
  ⟨by rw [hs], by rw [hc]⟩

/-- Writing another slot and its channel leaves slot `id` alone. -/
theorem SameSlotDrive.of_set_ne {s t : State} {id j : SlotId} {v : Slot} {ch : Channel}
    (hs : t.slots = s.slots.set j v) (hc : t.chans = s.chans.set j.chan ch) (hne : id ≠ j) :
    SameSlotDrive s t id where
  run := by rw [hs, Slots.get_set_ne _ _ hne]
  chan := by rw [hc, Channels.get_set_ne _ _ (mt SlotId.chan_inj.1 hne)]

/-- The steps that write the run status of slot `id`: the command, its step, and the value (R177). -/
inductive RunWrite (id : SlotId) : Instr → Nat → Run → Prop where
  | install (d : Dir) (f : Bool) : RunWrite id (.setMotor id.num d f) 0 .idle
  | fullOn : RunWrite id (.start id.num true) 27 .running
  | pwm : RunWrite id (.start id.num false) 27 .pwm
  | stop : RunWrite id (.stop id.num) 27 .idle

theorem RunWrite.drivesSlot_eq_true {id : SlotId} {i : Instr} {k : Nat} {r : Run} (h : RunWrite id i k r) :
    drivesSlot id i = true := by
  cases h <;> simp [drivesSlot]

/-- The writes of R177 as a case split over the value written. -/
theorem RunWrite.status_command_step {id : SlotId} {i : Instr} {k : Nat} {r : Run} (h : RunWrite id i k r) :
    (r = .idle ∧ ∃ d f, i = .setMotor id.num d f) ∨ (r = .running ∧ k = 27 ∧ i = .start id.num true) ∨
      (r = .pwm ∧ k = 27 ∧ i = .start id.num false) ∨ (r = .idle ∧ k = 27 ∧ i = .stop id.num) := by
  cases h with
  | install d f => exact .inl ⟨rfl, d, f, rfl⟩
  | fullOn => exact .inr (.inl ⟨rfl, rfl, rfl⟩)
  | pwm => exact .inr (.inr (.inl ⟨rfl, rfl, rfl⟩))
  | stop => exact .inr (.inr (.inr ⟨rfl, rfl, rfl⟩))

/-- Writing slot `j` with its channel leaves slot `id` alone, or writes the status of slot `id` where it is `j`. -/
theorem sameSlotDrive_or_runWrite_of_set {s t : State} {j : SlotId} {v : Slot} {ch : Channel} {i : Instr} {k : Nat}
    (hs : t.slots = s.slots.set j v) (hc : t.chans = s.chans.set j.chan ch) (hw : RunWrite j i k v.run)
    (id : SlotId) : SameSlotDrive s t id ∨ RunWrite id i k (t.slots.get id).run := by
  by_cases hid : id = j
  · subst hid
    rw [hs, Slots.get_set_same]
    exact .inr hw
  · exact .inl (.of_set_ne hs hc hid)

/-- The drive step (R174, R175). -/
theorem driveOf_sameSlotDrive_or_runWrite (i : Instr) (s : State) (id : SlotId) :
    SameSlotDrive s (driveOf i s) id ∨ RunWrite id i 27 ((driveOf i s).slots.get id).run := by
  cases i with
  | start slot flg =>
    cases hj : SlotId.ofField slot with
    | none =>
      rw [driveOf, startDrive_of_invalid hj]
      exact .inl ⟨rfl, rfl⟩
    | some j =>
      obtain rfl := SlotId.ofField_eq_some.1 hj
      rw [driveOf, startDrive_num]
      refine sameSlotDrive_or_runWrite_of_set rfl rfl ?_ id
      cases flg with
      | true => exact .fullOn
      | false => exact .pwm
  | stop slot =>
    cases hj : SlotId.ofField slot with
    | none =>
      rw [driveOf, stopDrive_of_invalid hj]
      exact .inl ⟨rfl, rfl⟩
    | some j =>
      obtain rfl := SlotId.ofField_eq_some.1 hj
      rw [driveOf, stopDrive_num]
      exact sameSlotDrive_or_runWrite_of_set (t := s.setRun j .idle) (s.setRun_slots j .idle)
        (s.chans.set_get j.chan).symm .stop id
  | _ => exact .inl ⟨rfl, rfl⟩

/-- Every command step leaves a slot's run status and channel, or is one of the writes of R177. -/
theorem exec_sameSlotDrive_or_runWrite {i : Instr} {s t : State} (h : exec i s = .next t) (id : SlotId) :
    SameSlotDrive s t id ∨ RunWrite id i s.phase (t.slots.get id).run := by
  obtain ⟨z, hp, hc, rfl⟩ | ⟨j, -, -, rfl⟩ | ⟨-, -, rfl⟩ | ⟨-, hp, rfl⟩ := exec_next_case h
  · rw [hp]
    cases hc with
    | bound j d | detached j d => exact sameSlotDrive_or_runWrite_of_set rfl rfl (.install d _) id
    | turn j | flip j => exact .inl ⟨(SameDrive.turn s j _).run id, rfl⟩
    | angle => exact .inl ⟨rfl, s.chans.get_set_c5 id _⟩
    | _ => exact .inl ⟨rfl, rfl⟩
  · exact .inl (.of_eq (by simp) (by simp) id)
  · exact .inl (.of_eq (by simp) (by simp) id)
  · rw [hp]
    exact (driveOf_sameSlotDrive_or_runWrite i s id).imp_left fun hsame => ⟨hsame.run, hsame.chan⟩

/-- Channel 5 is written by the servo commands alone (R179, R205). -/
theorem exec_c5 {i : Instr} {s t : State} (h : exec i s = .next t) (hi : isServo i = false) :
    t.chans.c5 = s.chans.c5 := by
  obtain ⟨z, -, hc, rfl⟩ | ⟨j, -, -, rfl⟩ | ⟨-, -, rfl⟩ | ⟨-, -, rfl⟩ := exec_next_case h
  · cases hc with
    | bound id | detached id => exact s.chans.c5_set_chan id _
    | angle => exact Bool.noConfusion hi
    | _ => rfl
  · simp
  · simp
  · exact driveOf_c5 i s

/-- Settles O42: a write of R177 is by a command on the slot, and channel 5 has its own lemma. -/
theorem channelsAreIndependent : Obligations.ChannelsAreIndependent := by
  unfold Obligations.ChannelsAreIndependent
  refine fun i s t h => ⟨fun id hid => ?_, exec_c5 h⟩
  obtain ⟨hrun, hchan⟩ | hw := exec_sameSlotDrive_or_runWrite h id
  · exact ⟨hrun, hchan⟩
  · exact Bool.noConfusion (hid.symm.trans hw.drivesSlot_eq_true)

/-- Settles O41: the clock and the bus leave the slots, so that a changed status is one of the writes of R177. -/
theorem runStatusTransitions : Obligations.RunStatusTransitions := by
  unfold Obligations.RunStatusTransitions
  intro s t id hr h hne
  obtain ⟨hrst, -⟩ | ⟨-, -, -, rfl⟩ | ⟨-, -, c, k, hs, ht⟩ := step_next h
  · exact Bool.noConfusion (hr.symm.trans hrst)
  · exact absurd (by simp) hne
  · refine ⟨c, k, hs, ?_⟩
    obtain hsame | hw := exec_sameSlotDrive_or_runWrite ht id
    · exact absurd (by simpa using hsame.run) hne
    · rw [State.phase_of_exec hs] at hw
      exact hw.status_command_step

end Sys2Proof.Machine
end

section
/-! The direction byte before the drive step (R178), and START from its CMD write to its end (R174, R269). -/

namespace Sys2Proof.Safety

open Sys2Proof.Machine

/-! ### The drive step finds the byte latched (R178) -/

/-- After all 26 pin writes both halves of the external register hold the direction byte, and the latch is high. -/
theorem PushAt.latched {s : State} (h : PushAt s 26) :
    s.srStore = s.dirByte ∧ s.srChain = s.dirByte ∧ s.latLvl = .h :=
  ⟨h.store rfl, h.chain_eq rfl, (h.latch (by decide)).trans (if_pos rfl)⟩

/-- The drive step leaves the push where it is: it writes slots, channels and STATUS. -/
theorem PushAt.drive {s : State} {m : Nat} (h : PushAt s m) (i : Instr) : PushAt ((driveOf i s).finish false) m := by
  rw [driveOf_frame]
  exact h.congr rfl rfl rfl rfl rfl rfl

/-- Settles O40: at step 27 all pin writes are made, and the clock, the bus and the drive step leave them so. -/
theorem directionLatchedBeforeDrive : Obligations.DirectionLatchedBeforeDrive := by
  unfold Obligations.DirectionLatchedBeforeDrive
  intro s t c hinv hprog hs hr h
  have hpush : PushAt s 26 := (pushProgress_iff_of_exec hs).1 hprog
  have hseq := serveBus_seq_of_exec hs
  obtain ⟨-, hlt, -⟩ := (seqOk_iff_of_exec hs).1 hinv.seq
  have hn : stepCount (decodeWord c) = 28 := by
    have := stepCount_cases (decodeWord c)
    omega
  obtain ⟨hrst, -⟩ | ⟨-, -, hidle, -⟩ | ⟨-, -, c', k, hexec, ht⟩ := step_next h
  · exact Bool.noConfusion (hr.symm.trans hrst)
  · cases hseq.symm.trans hidle
  · cases hseq.symm.trans hexec
    rw [exec_of_drive hn hseq] at ht
    cases ht
    obtain ⟨hstore, hchain, hlat⟩ := hpush.latched
    obtain ⟨hstore', hchain', hlat'⟩ := (hpush.clockBus.drive (decodeWord c)).latched
    exact ⟨hstore, hchain, hlat, hstore', hchain', hlat', by rw [driveOf_frame]; simp, rfl⟩

/-! ### START (R174) -/

/-- The clock step that accepts a START on a ready slot changes no slot and no channel (R174; log 2). -/
theorem step_of_offered_start {s : State} {w : Word} {rest : List Access} {id : SlotId} {flg : Bool}
    (hr : s.inputs.rst = false) (h : Offered s w rest) (hw : decodeWord w = .start id.num flg)
    (ho : (s.slots.get id).occ = true) (hl : (s.slots.get id).line = true) (hb : s.regBound = true)
    (hv : flg = false → validPwm s.period s.width = true) :
    step s = .next { s.beginClock with host := rest, seq := .exec w 1 } := by
  rw [step_of_offered hr h, hw]
  obtain ⟨-, -, hready⟩ := exec_of_driveChecks (s := { s.beginClock with host := rest, seq := .exec w 0 }) rfl
    (step0_start_of_valid ho hv)
  exact hready hb hl

/-- The clock step after a START's push drives the line (R174). -/
theorem MidPush.step_start_drive {s t : State} {c : Word} {id : SlotId} {flg : Bool} {n : Nat}
    (h : MidPush s t c 26 (n + 1)) (hc : decodeWord c = .start id.num flg) :
    step t = .next ((startDrive id.num flg t.beginClock.serveBus).finish false) := by
  rw [h.step_eq, hc]
  exact exec_start_drive (serveBus_seq_of_exec h.seq) id flg

/-- What the drive step makes of a whole push: the slot and its channel written, the rest as the push left it. -/
theorem Pushed.start_drive {s t : State} (h : Pushed s t 26) (id : SlotId) (flg : Bool) :
    (startDrive id.num flg t).srStore = s.dirByte ∧ (startDrive id.num flg t).dirByte = s.dirByte ∧
      (startDrive id.num flg t).slots =
        s.slots.set id { s.slots.get id with run := if flg then .running else .pwm } ∧
      (startDrive id.num flg t).chans = s.chans.set id.chan
        (if flg then { s.chans.get id.chan with period := 0, width := 0 }
         else { period := s.period, width := s.width, origin := (startDrive id.num flg t).time }) ∧
      (startDrive id.num flg t).trace = s.trace ++ (pushWrites s.dirByte).map (fun e => Event.pin e.1 e.2) := by
  rw [startDrive_num]
  exact ⟨(h.push.store rfl).trans h.dirByte, h.dirByte, by rw [h.slots], by rw [h.chans, h.period, h.width], h.trace⟩

/-- Settles O38: the accepting clock step, 26 pin writes, and the drive step. -/
theorem startRunsInTwentyEightSteps : Obligations.StartRunsInTwentyEightSteps := by
  unfold Obligations.StartRunsInTwentyEightSteps
  intro s w rest id flg hoffer hw ho hl hb hv hreset hgood
  obtain ⟨hrst, hnext⟩ := noReset_succ hreset
  have hst := step_of_offered_start hrst hoffer hw ho hl hb hv
  obtain ⟨u, hrun, hmid⟩ := exists_run_midPush (c := w) (m := 26) (n := 1) (hgood.step hst) rfl hb
    (by rw [hw]; exact Nat.lt_succ_self 27) (hnext _ rfl)
  have hpush := hmid.pushed
  have hbus := hpush.clockBus (State.busy_of_exec hmid.seq)
  exact ⟨u, _, (run_next hst 26).trans hrun, hmid.step_start_drive hw, State.busy_of_exec hmid.seq,
    (hpush.push.store rfl).trans hpush.dirByte, hpush.slots, hpush.chans, rfl, rfl, rfl, hbus.start_drive id flg⟩

end Sys2Proof.Safety
end

section
/-! The PWM waveform over whole periods (R171), and the run status as SLOTn_STATE shows it (R176). -/

namespace Sys2Proof.Machine

/-! ### The waveform (R171) -/

/-- Tick `j` of any period from the origin on. -/
theorem wave_of_tick (ch : Channel) (n : Nat) {j : Nat} (hj : j < ch.period.toNat) :
    wave ch (ch.origin + (n * ch.period.toNat + j)) = if j < ch.width.toNat then .h else .l := by
  rw [wave, Nat.add_sub_cancel_left, Nat.mul_add_mod_self_right, Nat.mod_eq_of_lt hj]

theorem wave_of_zero_width {ch : Channel} (hw : ch.width = 0) (t : Nat) : wave ch t = .l := by
  simp [wave, hw]

/-- A remainder is below the period, so that a width of a whole period is always high. -/
theorem wave_of_full_width {ch : Channel} (hp : 0 < ch.period.toNat) (hw : ch.width = ch.period) (t : Nat) :
    wave ch t = .h := by
  rw [wave, hw, if_pos (Nat.mod_lt _ hp)]

/-- Settles O43: a tick of a period, and the two constant waveforms. -/
theorem waveformPeriods : Obligations.WaveformPeriods := by
  unfold Obligations.WaveformPeriods
  intro ch n j hv hj
  obtain ⟨hp, -⟩ := validPwm_iff.1 hv
  exact ⟨wave_of_tick ch n hj, wave_of_zero_width, wave_of_full_width hp⟩

/-! ### Running (R176) -/

theorem Run.isRunning_iff {r : Run} : r.isRunning = true ↔ r = .running ∨ r = .pwm := by
  cases r <;> decide

/-- SLOTn_STATE[3:2] is the code of the run status (R61). -/
theorem extractLsb'_run_readReg_slotState (s : State) (id : SlotId) :
    (readReg s (BitVec.ofNat 32 (Reg.slotState id).offset)).extractLsb' 2 2 = (s.slots.get id).run.code := by
  obtain ⟨-, -, hrun, -, -⟩ := slotStateWord_fields (s.slots.get id)
  simp only [readReg, Reg.find_offset, Reg.value, hrun]

/-- Settles O45: the run status by its values, its code in SLOTn_STATE, and an empty slot's Idle. -/
theorem isRunningReadsRunBits : Obligations.IsRunningReadsRunBits := by
  unfold Obligations.IsRunningReadsRunBits
  refine fun s id => ⟨Run.isRunning_iff, ?_, fun hok he => ?_⟩
  · rw [extractLsb'_run_readReg_slotState, ← bne_iff_ne, Run.code_bne_zero]
  · rw [hok.empty_run he]
    rfl

end Sys2Proof.Machine
end

section
/-! The servo commands BIND_SERVO_LINE (R203) and SET_ANGLE (R204), and what they share with the motor side: nothing
but STATUS and the sequencer (R205). -/

namespace Sys2Proof.Machine

open Sys2Proof.Safety

/-! ### BIND_SERVO_LINE and SET_ANGLE -/

theorem step0_bindServoLine_granted {s : State} (h : s.acqGrant = true) :
    step0 .bindServoLine s = .done false { s.request with servoBound := true, servoActive := false } := by
  simp [step0, bindServoLineBody, h]

theorem step0_bindServoLine_refused {s : State} (h : s.acqGrant = false) :
    step0 .bindServoLine s = .raised .setup s.request := by
  simp [step0, bindServoLineBody, h]

/-- Settles O46: the opcode's row, and step 0 by the acquisition. -/
theorem bindServoLineAcquires : Obligations.BindServoLineAcquires := by
  unfold Obligations.BindServoLineAcquires
  refine ⟨fun _ => OpcodeRow.bindServoLine.decodeWord_of_mask, fun s c hs => ⟨fun hg => ?_, fun hg => ?_⟩⟩
  · rw [exec_of_step0 _ hs, step0_bindServoLine_granted hg]
    rfl
  · rw [exec_of_step0 _ hs, step0_bindServoLine_refused hg, Step0.close, State.raise_setup]
    rfl

theorem step0_setAngle_out_of_range {a : Byte} (ha : 180 < a.toNat) (s : State) :
    step0 (.setAngle a) s = .raised .range s := by
  rw [step0, setAngleBody, if_pos (angleOutOfRange_iff.2 ha)]

theorem step0_setAngle_in_range {a : Byte} (ha : a.toNat ≤ 180) (s : State) :
    step0 (.setAngle a) s = if s.servoBound then .done false (s.driveServo a) else .raised .cfgPin s := by
  rw [step0, setAngleBody, if_neg (mt angleOutOfRange_iff.1 ha.not_gt)]

/-- Settles O47: the opcode's row, and step 0 by the range, then the line. -/
theorem setAngleDrivesServo : Obligations.SetAngleDrivesServo := by
  unfold Obligations.SetAngleDrivesServo
  refine ⟨fun _ => OpcodeRow.setAngle.decodeWord_of_mask,
    fun s c a hs => ⟨fun ha => ?_, fun ha hb => ?_, fun ha hb => ?_⟩⟩
  · exact exec_of_step0_raised hs (step0_setAngle_out_of_range ha s) (by decide)
  · have h0 : step0 (.setAngle a) s = .raised .cfgPin s := by simp [step0_setAngle_in_range ha, hb]
    exact exec_of_step0_raised hs h0 (by decide)
  · rw [exec_of_step0 _ hs, step0_setAngle_in_range ha, if_pos hb]
    rfl

/-! ### Independence (R205) -/

/-- The servo commands serialize nothing, so that step 0 is their only step (R101). -/
theorem stepCount_of_isServo {i : Instr} (h : isServo i = true) : stepCount i = 1 := by
  cases i with
  | bindServoLine | setAngle => rfl
  | _ => exact Bool.noConfusion h

/-- A servo command writes the servo's state, channel 5, STATUS, the sequencer and `acq_req` only. -/
theorem exec_servo_frame {i : Instr} {s t : State} (h : exec i s = .next t) (hi : isServo i = true) :
    t = { s with
      servoBound := t.servoBound, servoActive := t.servoActive, servoAngle := t.servoAngle,
      chans := s.chans.set .c5 t.chans.c5, err := t.err, diag := t.diag, setupFault := t.setupFault, seq := t.seq,
      acqReq := t.acqReq } := by
  have hn := stepCount_of_isServo hi
  obtain ⟨z, -, hc, rfl⟩ | ⟨j, -, hlt, -⟩ | ⟨h27, -, -⟩ | ⟨h28, -, -⟩ := exec_next_case h
  · cases hc with
    | raised | refused | servoLine | angle => rfl
    | _ => exact Bool.noConfusion hi
  · omega
  · omega
  · omega

/-- The servo's state is written by the servo commands alone; channel 5 has its own lemma, `exec_c5`. -/
theorem exec_servoState {i : Instr} {s t : State} (h : exec i s = .next t) (hi : isServo i = false) :
    t.servoBound = s.servoBound ∧ t.servoActive = s.servoActive ∧ t.servoAngle = s.servoAngle := by
  obtain ⟨z, -, hc, rfl⟩ | ⟨j, -, -, rfl⟩ | ⟨-, -, rfl⟩ | ⟨-, -, rfl⟩ := exec_next_case h
  · cases hc with
    | servoLine | angle => exact Bool.noConfusion hi
    | _ => exact ⟨rfl, rfl, rfl⟩
  · simp
  · simp
  · rw [driveOf_frame]
    exact ⟨rfl, rfl, rfl⟩

/-- Settles O50: the frame of the servo commands, and that of the others, from which SERVO_OUT follows. -/
theorem servoIsIndependent : Obligations.ServoIsIndependent := by
  unfold Obligations.ServoIsIndependent
  refine fun i s t h => ⟨fun hi => ?_, fun hi => ?_⟩
  · rw [exec_servo_frame h hi]
    exact ⟨rfl, rfl, rfl, rfl, rfl, rfl, rfl, rfl, rfl, fun id => s.chans.get_set_c5 id _⟩
  · obtain ⟨hbound, hactive, hangle⟩ := exec_servoState h hi
    obtain ⟨-, -, -, -, htime⟩ := exec_inputs h
    have hc5 := exec_c5 h hi
    exact ⟨hbound, hactive, hangle, hc5, State.servoLevel_congr hbound hactive hc5 htime⟩

end Sys2Proof.Machine
end

section
/-! The angle mapping (R201, R202): the width as a number, and what follows from its formula. -/

namespace Sys2Proof.Machine

/-- The interpolation never passes the whole distance of the end points. -/
theorem interpolation_le {a : Nat} (ha : a ≤ 180) (d : Nat) : a * d / 180 ≤ d :=
  Nat.div_le_of_le_mul (Nat.mul_le_mul_right d ha)

/-- The 32-bit width is the formula's value: the latter is at most SERVO_MAX_US (R200, R201). -/
theorem toNat_angleToWidth {cal : ServoCal} {a : Byte} (hcal : cal.ok = true) (ha : a.toNat ≤ 180) :
    (angleToWidth cal a).toNat = cal.minUs + a.toNat * (cal.maxUs - cal.minUs) / 180 := by
  obtain ⟨hle, hmax⟩ := ServoCal.ok_iff.1 hcal
  have := interpolation_le ha (cal.maxUs - cal.minUs)
  rw [angleToWidth, BitVec.toNat_ofNat, Nat.mod_eq_of_lt (by omega)]

/-- Settles O48: the width is the formula, and the product's factors are at most 180 and 20000. -/
theorem angleToWidthFormula : Obligations.AngleToWidthFormula := by
  unfold Obligations.AngleToWidthFormula
  intro cal a hcal ha
  obtain ⟨-, hmax⟩ := ServoCal.ok_iff.1 hcal
  exact ⟨toNat_angleToWidth hcal ha, Nat.mul_le_mul ha ((Nat.sub_le _ _).trans hmax)⟩

theorem angleToWidth_mono {cal : ServoCal} {a b : Byte} (hcal : cal.ok = true) (hab : a.toNat ≤ b.toNat)
    (hb : b.toNat ≤ 180) : (angleToWidth cal a).toNat ≤ (angleToWidth cal b).toNat := by
  rw [toNat_angleToWidth hcal (hab.trans hb), toNat_angleToWidth hcal hb]
  gcongr

/-- The width lies between the end points (R202). -/
theorem angleToWidth_mem_Icc {cal : ServoCal} {a : Byte} (hcal : cal.ok = true) (ha : a.toNat ≤ 180) :
    (angleToWidth cal a).toNat ∈ Set.Icc cal.minUs cal.maxUs := by
  obtain ⟨hle, -⟩ := ServoCal.ok_iff.1 hcal
  have := interpolation_le ha (cal.maxUs - cal.minUs)
  rw [toNat_angleToWidth hcal ha]
  constructor <;> omega

/-- Settles O49: the formula at 0, 180 and 90, its order, and its bounds. -/
theorem angleMappingProperties : Obligations.AngleMappingProperties := by
  unfold Obligations.AngleMappingProperties
  intro cal hcal
  obtain ⟨hle, hmax⟩ := ServoCal.ok_iff.1 hcal
  have h0 : (angleToWidth cal 0).toNat = cal.minUs + 0 * (cal.maxUs - cal.minUs) / 180 :=
    toNat_angleToWidth hcal (by decide)
  have h90 : (angleToWidth cal 90).toNat = cal.minUs + 90 * (cal.maxUs - cal.minUs) / 180 :=
    toNat_angleToWidth hcal (by decide)
  have h180 : (angleToWidth cal 180).toNat = cal.minUs + 180 * (cal.maxUs - cal.minUs) / 180 :=
    toNat_angleToWidth hcal (by decide)
  refine ⟨by omega, by omega, by omega, by omega, fun a b => angleToWidth_mono hcal, fun a ha => ?_⟩
  obtain ⟨hlow, hhigh⟩ := angleToWidth_mem_Icc hcal ha
  exact ⟨hlow, hhigh, validPwm_iff.2 ⟨by decide, hhigh.trans hmax⟩⟩

end Sys2Proof.Machine
end

section
/-! Errors (R231, R233, R237): a command step raises an error, or leaves SETUP_FAULT and ends with OK where it ends; and
what an error raised in step 0 writes. -/

namespace Sys2Proof.Machine

open Sys2Proof.Safety

/-- Code 6 is SETUP's alone (R230). -/
theorem Err.code_eq_six {e : Err} : e.code = 6 ↔ e = .setup := by
  cases e <;> decide

/-- A step 0 that raises an error has written nothing but `acq_req`, and that where it was refused a line (R9, R15). -/
theorem step0_raised_frame {i : Instr} {s u : State} {e : Err} (h : Step0Case s i (.raised e u)) :
    u = { s with acqReq := u.acqReq } ∧ (e = .setup → u.acqReq = true) := by
  cases h with
  | raised _ _ he _ => exact ⟨rfl, fun hsetup => absurd hsetup he⟩
  | refused _ _ _ => exact ⟨rfl, fun _ => rfl⟩

/-- A command step raises an error in step 0, or leaves SETUP_FAULT, and where it then ends the command, ERR is OK
(R100, R231). -/
theorem exec_raised_or_ok {i : Instr} {s t : State} (h : exec i s = .next t) :
    (∃ e u, s.phase = 0 ∧ Step0Case s i (.raised e u) ∧ t = u.raise e) ∨
    (t.setupFault = s.setupFault ∧ (t.seq = .idle → t.err = 0)) := by
  obtain ⟨z, hp, hc, rfl⟩ | ⟨j, -, -, rfl⟩ | ⟨-, -, rfl⟩ | ⟨-, -, rfl⟩ := exec_next_case h
  · cases z with
    | raised e u => exact .inl ⟨e, u, hp, hc, rfl⟩
    | done d u =>
      obtain ⟨hsf, -⟩ := step0_done_status hc
      exact .inr ⟨hsf, fun _ => rfl⟩
    | push u =>
      obtain ⟨-, -, hsf⟩ := step0_push_status hc
      exact .inr ⟨hsf, fun hidle => Seq.noConfusion hidle⟩
  · exact .inr ⟨s.pushWrite_setupFault j, fun hidle => Seq.noConfusion hidle⟩
  · exact .inr ⟨s.pushWrite_setupFault 25, fun _ => rfl⟩
  · refine .inr ⟨?_, fun _ => rfl⟩
    rw [driveOf_frame]
    rfl

/-- Settles O51: a command that ends with an error has raised it in step 0. -/
theorem errorsArePrecise : Obligations.ErrorsArePrecise := by
  unfold Obligations.ErrorsArePrecise
  intro i s t h hidle herr
  obtain ⟨e, u, hp, hc, rfl⟩ | ⟨-, hok⟩ := exec_raised_or_ok h
  · obtain ⟨hu, -⟩ := step0_raised_frame hc
    have hsetup : decide (e = .setup) = decide (e.code = 6) := decide_eq_decide.2 Err.code_eq_six.symm
    refine ⟨?_, hp, e.code_le⟩
    rw [hu, State.raise, hsetup]
  · exact absurd (hok hidle) herr

/-- A command step never clears SETUP_FAULT, sets it only as a refused acquisition, and sets it whenever it ends the
command with code 6 (R233). -/
theorem exec_setupFault {i : Instr} {s t : State} (h : exec i s = .next t) :
    (s.setupFault = true → t.setupFault = true) ∧
    (s.setupFault = false → t.setupFault = true → t.err = 6 ∧ t.acqReq = true) ∧
    (t.seq = .idle → t.err = 6 → t.setupFault = true) := by
  obtain ⟨e, u, -, hc, rfl⟩ | ⟨hsf, hok⟩ := exec_raised_or_ok h
  · obtain ⟨hu, hreq⟩ := step0_raised_frame hc
    have hsf : u.setupFault = s.setupFault := by rw [hu]
    rw [State.raise_setupFault, hsf]
    refine ⟨fun hs => by simp [hs], fun hs ht => ?_, fun _ he => by simp [Err.code_eq_six.1 he]⟩
    have hsetup : e = .setup := by simpa [hs] using ht
    exact ⟨Err.code_eq_six.2 hsetup, hreq hsetup⟩
  · rw [hsf]
    refine ⟨id, fun hs ht => Bool.noConfusion (hs.symm.trans ht), fun hidle he => ?_⟩
    exact absurd (he.symm.trans (hok hidle)) (by decide)

/-- Settles O53: the clock and the bus leave SETUP_FAULT, and a command step writes it as `exec_setupFault` says. -/
theorem setupFaultIsSticky : Obligations.SetupFaultIsSticky := by
  unfold Obligations.SetupFaultIsSticky
  intro s t hr h
  have hbus : s.beginClock.serveBus.setupFault = s.setupFault := by simp
  rw [← hbus]
  obtain ⟨hrst, -⟩ | ⟨-, -, hidle, rfl⟩ | ⟨-, -, c, k, -, ht⟩ := step_next h
  · exact Bool.noConfusion (hr.symm.trans hrst)
  · exact ⟨id, fun hs ht => Bool.noConfusion (hs.symm.trans ht), fun _ _ hs => nomatch hidle.symm.trans hs⟩
  · obtain ⟨hkeeps, hrises, hsets⟩ := exec_setupFault ht
    exact ⟨hkeeps, hrises, fun _ _ _ => hsets⟩

end Sys2Proof.Machine
end

section
/-! No command hangs and none stops the block (R235, R242): a well-kept sequencer is at a step that its command has, so
that each clock step answers a next state and takes the command one step nearer to its end. -/

namespace Sys2Proof.Safety

open Sys2Proof.Machine

/-! ### Faults (R235) -/

/-- With a well-kept sequencer the block answers every clock step whose access fits the bus. -/
theorem exists_step_next {s : State} (h : SeqOk s) (hb : s.busRefusal = none) : ∃ t, step s = .next t := by
  obtain ⟨r, hr, -⟩ | ⟨-, -, hst⟩ | ⟨-, -, -, hst⟩ | ⟨-, -, c, k, hseq, hst⟩ := step_cases s
  · simp [hb] at hr
  · exact ⟨_, hst⟩
  · exact ⟨_, hst⟩
  · rw [hst, exists_exec_next_iff, State.phase_of_exec hseq]
    obtain ⟨c', hstart⟩ | hok := h.clockBus
    · cases hseq.symm.trans hstart
      have := stepCount_cases (decodeWord c)
      omega
    · obtain ⟨-, hlt, -⟩ := (seqOk_iff_of_exec hseq).1 hok
      exact hlt

/-- Settles O56: a refused access stops the step, and without one there is a next state. -/
theorem blockNeverFaults : Obligations.BlockNeverFaults := by
  unfold Obligations.BlockNeverFaults
  intro s hinv
  cases hb : s.busRefusal with
  | some r => simp [step_of_busRefusal hb]
  | none =>
    obtain ⟨t, ht⟩ := exists_step_next hinv.seq hb
    simp [ht]

/-! ### The end of a command (R242, R269) -/

/-- Past its step 0 a command goes on to its next step, or ends after its last (R34, R101). -/
theorem exec_seq_past_step0 {i : Instr} {s t : State} {c : Word} {k : Nat} (hs : s.seq = .exec c k) (hk : 1 ≤ k)
    (h : exec i s = .next t) : t.seq = if k + 1 < stepCount i then .exec c (k + 1) else .idle := by
  obtain rfl : s.phase = k := State.phase_of_exec hs
  obtain ⟨hp, -⟩ | ⟨j, hp, hj, rfl⟩ | ⟨hn, hp, rfl⟩ | ⟨hn, hp, rfl⟩ := exec_next.1 h
  · omega
  · rw [if_pos (by omega)]
    exact State.advance_seq_of_exec i ((s.pushWrite_seq j).trans hs)
  · rw [if_neg (by omega)]
    rfl
  · rw [if_neg (by omega)]
    rfl

/-- Between two clock steps: command `c` is at a step `k` that it has, past its step 0, the host's accesses fit the bus,
and `n` more clock steps come without a reset. -/
structure InCommand (s : State) (c : Word) (k n : Nat) : Prop where
  seq : s.seq = .exec c k
  started : 1 ≤ k
  lt : k < stepCount (decodeWord c)
  noReset : NoReset s n
  goodHost : GoodHost s

/-- The next clock step runs the command's step, whatever the host and the other inputs do (R66). -/
theorem InCommand.exists_step {s : State} {c : Word} {k n : Nat} (h : InCommand s c k (n + 1)) :
    ∃ t, step s = .next t ∧ t.seq = (if k + 1 < stepCount (decodeWord c) then .exec c (k + 1) else .idle) ∧
      NoReset t n ∧ GoodHost t := by
  have hseq := serveBus_seq_of_exec h.seq
  obtain ⟨hrst, hnext⟩ := noReset_succ h.noReset
  obtain ⟨t, ht⟩ : ∃ t, exec (decodeWord c) s.beginClock.serveBus = .next t := by
    rw [exists_exec_next_iff, State.phase_of_exec hseq]
    exact h.lt
  have hst : step s = .next t := (step_of_exec hrst (busRefusal_of_goodHost h.goodHost) hseq).trans ht
  obtain ⟨-, -, hclk, -⟩ := step_clock hrst hst
  exact ⟨t, hst, exec_seq_past_step0 hseq h.started ht, hnext t hclk, h.goodHost.step hst⟩

/-- A run of `m` clock steps takes a command `m` steps further, while it has that many. -/
theorem InCommand.exists_run {s : State} {c : Word} {k m n : Nat} (h : InCommand s c k (m + n))
    (hm : k + m < stepCount (decodeWord c)) :
    ∃ t, Host.Core.run Sys2Proof.core m s = .next t ∧ InCommand t c (k + m) n := by
  induction m generalizing n with
  | zero => exact ⟨s, rfl, Nat.zero_add n ▸ h⟩
  | succ m ih =>
    obtain ⟨t, hrun, ht⟩ := ih (n := n + 1) (by rwa [Nat.add_right_comm] at h) (by omega)
    obtain ⟨u, hst, hseq, hr, hg⟩ := ht.exists_step
    rw [if_pos (by omega)] at hseq
    exact ⟨u, (run_succ hrun).trans hst, hseq, by omega, hm, hr, hg⟩

/-- Settles O55: the command is running before its last step, and the last one ends it. -/
theorem commandsEndInTime : Obligations.CommandsEndInTime := by
  unfold Obligations.CommandsEndInTime
  intro s c k hinv hs hr hg
  obtain ⟨hk, hlt, -⟩ := (seqOk_iff_of_exec hs).1 hinv.seq
  have hcount : stepCount (decodeWord c) ≤ 28 := by
    have := stepCount_cases (decodeWord c)
    omega
  have hrun : ∀ m n, m + n = 28 → k + m < stepCount (decodeWord c) →
      ∃ t, Host.Core.run Sys2Proof.core m s = .next t ∧ InCommand t c (k + m) n := fun m n hmn hm =>
    InCommand.exists_run ⟨hs, hk, hlt, hmn ▸ hr, hg⟩ hm
  refine ⟨hlt, hcount, ?_⟩
  obtain ⟨m, hm⟩ : ∃ m, stepCount (decodeWord c) = k + m + 1 := ⟨stepCount (decodeWord c) - k - 1, by omega⟩
  obtain ⟨u, hu, hlast⟩ := hrun m (27 - m + 1) (by omega) (by omega)
  obtain ⟨t, hst, hidle, -⟩ := hlast.exists_step
  rw [if_neg (by omega)] at hidle
  refine ⟨t, ?_, by simp [State.busy, hidle], fun n hn => ?_⟩
  · rw [show stepCount (decodeWord c) - k = m + 1 by omega]
    exact (run_succ hu).trans hst
  · obtain ⟨v, hv, hrunning⟩ := hrun n (28 - n) (by omega) (by omega)
    exact ⟨v, hv, State.busy_of_exec hrunning.seq⟩

end Sys2Proof.Safety
end

section
/-! The reset step as an equation, and the values it gives the block (R260). -/

namespace Sys2Proof.Machine

/-- A reset step is refused only with its access; otherwise it resets what the clock and the bus have made (R62, R260). -/
theorem step_eq_of_rst {s : State} (hr : s.inputs.rst = true) (hb : s.busRefusal = none) :
    step s = .next s.beginClock.serveBus.applyReset := by
  simp [step, hb, hr]

/-- Settles O9: the values are the reset's whatever the bus stored; the earlier trace and `acq_req` 0 come through the
bus from the clock. -/
theorem resetStepRestoresBlock : Obligations.ResetStepRestoresBlock := by
  unfold Obligations.ResetStepRestoresBlock
  intro s hr hb
  have hundriven := s.beginClock.serveBus.applyReset_undriven
  refine ⟨_, step_eq_of_rst hr hb, rfl, rfl, State.applyReset_slot _,
    fun id => ⟨State.applyReset_chan_period _ id, State.applyReset_chan_width _ id⟩, ?_⟩
  simp [hundriven]

end Sys2Proof.Machine
end
